-- ==== Sys2Proof/Word.lean ====
section
/-! DEFINITION. The word types of the single-wire sensor protocol controller (spec/00_scope.md R8:
all integer registers are unsigned; bit 0 is the least significant bit). -/

namespace Sys2Proof

/-- One element of the bit buffer, one byte of the frame, or the ARG field of a command (R16, R17, R63). -/
abbrev Byte := BitVec 8

/-- One host register or one command word (R40, R63). -/
abbrev Word := BitVec 32

/-- Nanoseconds on the 64-bit monotonic counter that stamps edges and drives the timers (R6 TS_WIDTH, R24). -/
abbrev Nanos := BitVec 64

/-- One word on the line-event port (R65). -/
abbrev LineWord := BitVec 68

end Sys2Proof
end

