-- ==== Sys2Proof/Config.lean ====
section
/-! DEFINITION. What an integrator of the block fixes (spec/00_scope.md R5, R6; spec/92_eei_decisions.md,
"Open parameters"), and the free values of the model. A constant the source fixes has a value here; an OPEN
parameter is an opaque constant, so that no proof can see what it is. -/

namespace Sys2Proof

/-- The two values FLOAT_FMT may have (R6, R118). -/
inductive FloatFmt where
  | binary32
  | binary64
deriving DecidableEq, Repr, Inhabited

/-- The build-time parameters some rule reads (R6, R29). A machine carries one record of them; no step writes it. -/
structure Params where
  /-- FLOAT_FMT (R118). -/
  floatFmt : FloatFmt
  /-- T_HOLD_NS, the length of the start pulse (R166). -/
  tHoldNs : Nanos
  /-- DEADLINE_RESET_NS, the reset value of the DEADLINE register (R23). -/
  deadlineResetNs : Word
deriving DecidableEq, Repr

/-- THRESH_NS (R5, R61, R188): an interval below it is bit 0, any other is bit 1. -/
def Config.threshNs : Nanos := 40000

/-- N_BITS (R5): the length of a complete bit sequence. -/
def Config.nBits : Nat := 40

/-- T_HOLD_NS as the spec sets it by default (R6, R166): 2 ms. -/
def Config.tHoldNs : Nanos := 2000000

/-- FLOAT_FMT is an OPEN argument (R6, R118): no proof sees which format this machine has. -/
opaque Config.floatFmt : FloatFmt

/-- DEADLINE_RESET_NS is an OPEN argument (R6, R23), any 32-bit value. -/
opaque Config.deadlineResetNs : Word

/-- The parameters of the machine the fixed name `State.reset` stands for. -/
def Config.params : Params where
  floatFmt := Config.floatFmt
  tHoldNs := Config.tHoldNs
  deadlineResetNs := Config.deadlineResetNs

/-- PIN (R6): the pin the line is identified by; no rule reads it. -/
opaque Config.pin : Nat

/-- F_CLK and TICK_NS (R6): open; no rule depends on them. -/
opaque Config.clockHz : Nat
opaque Config.tickNs : Nat

/-- Reset polarity (R6, R180): open; the model sees reset as the event RESET only. -/
opaque Config.resetActiveHigh : Bool

/-- FREE VALUES (log entry 4): what a float operation gives when an operand is a pattern that denotes no finite
number, or a divisor is zero. The spec states no result there and says it never arises (R119); the bits of the
two operands are the arguments. -/
opaque Config.fdivOpen : FloatFmt → BitVec 64 → BitVec 64 → BitVec 64
opaque Config.fmulOpen : FloatFmt → BitVec 64 → BitVec 64 → BitVec 64
opaque Config.faddOpen : FloatFmt → BitVec 64 → BitVec 64 → BitVec 64

end Sys2Proof
end

