-- ==== Sys2Proof/Syntax.lean ====
section
/-! DEFINITION. The fifteen rows of spec/opcode_table.json as one inductive: ten host commands (format H), three line
events (format L) and two timer events (format T), and the words of the three ports that carry them
(spec/30_encoding.md R60). Field widths are in the types, so no operand can be out of range. -/

namespace Sys2Proof

/-- The direction of an edge (R65 DIR: 0 falling, 1 rising). -/
inductive EdgeDir where
  | falling
  | rising
deriving DecidableEq, Repr

/-- What the block can be told to do in one event: one constructor per row of spec/opcode_table.json.
ARG is an operand of PUSHBIT alone; every other command ignores it (R63, R70 d). -/
inductive Instr where
  /-- NOP (R132). -/
  | nop
  /-- READ (R80). -/
  | read
  /-- READENV (R131). -/
  | readEnv
  /-- CLEAR (R133). -/
  | clear
  /-- PUSHBIT (R134): append `arg` to the bit buffer. -/
  | pushBit (arg : Byte)
  /-- PACK (R111). -/
  | pack
  /-- VALIDATE (R113). -/
  | validate
  /-- ASSEMBLE (R114). -/
  | assemble
  /-- DECODE (R115). -/
  | decode
  /-- ALTSCALE (R116). -/
  | altScale
  /-- EDGE (R82): a transition of the line with its direction and its timestamp. -/
  | edge (dir : EdgeDir) (ts : Nanos)
  /-- END (R87): the edge stream has ended. -/
  | endOfStream
  /-- ERROR (R88): the line device failed with this code. -/
  | lineError (code : Word)
  /-- HOLD_DONE (R81): the start-pulse hold has elapsed. -/
  | holdDone
  /-- DEADLINE (R89): the overall deadline has passed. -/
  | deadline
deriving DecidableEq, Repr

/-- A word on one of the three ports (R60): a 32-bit command written to CMD, a 68-bit line-event word, or a 1-bit
timer code. The port says which format the word has. -/
inductive PortWord where
  | cmd (w : Word)
  | line (e : LineWord)
  | timer (c : BitVec 1)
deriving DecidableEq, Repr

end Sys2Proof
end

