-- ==== Sys2Proof/WellFormed.lean ====
section
/-! DEFINITION. Well-formedness. The operand types of `Instr` are exactly the widths of the encoding's fields, so every
instruction is well-formed; what can be ill-formed is a WORD: the checks are the reserved encodings of
spec/30_encoding.md R70 (a) and (b). -/

namespace Sys2Proof

/-- Every operand of every instruction fits its field by its type (R63, R65, R66); one line per constructor, so
that an operand added later has its check here. -/
def Instr.wellFormed : Instr → Bool
  | .nop => true
  | .read => true
  | .readEnv => true
  | .clear => true
  | .pushBit _ => true
  | .pack => true
  | .validate => true
  | .assemble => true
  | .decode => true
  | .altScale => true
  | .edge _ _ => true
  | .endOfStream => true
  | .lineError _ => true
  | .holdDone => true
  | .deadline => true

/-- R63, R70 (a): bits 7:4 and 31:16 of a command word are zero. -/
def reservedBitsZero (w : Word) : Bool :=
  w.extractLsb' 4 4 == 0 && w.extractLsb' 16 16 == 0

/-- R64, R70 (a): OP is one of 0 to 9. -/
def opDefined (w : Word) : Bool :=
  decide ((w.extractLsb' 0 4).toNat ≤ 9)

/-- R65, R70 (b): KIND of a line-event word is not 3. -/
def kindDefined (e : LineWord) : Bool :=
  e.extractLsb' 0 2 != 3

/-- A port word that is no reserved encoding (R70). Every 1-bit timer code is defined (R66). -/
def PortWord.wellFormed : PortWord → Bool
  | .cmd w => reservedBitsZero w && opDefined w
  | .line e => kindDefined e
  | .timer _ => true

end Sys2Proof
end

