-- ==== Sys2Proof/Decode.lean ====
section
/-! DEFINITION. The decoder of the three ports, total, rejecting reserved encodings by name, and after it the encoder
(spec/30_encoding.md R63 to R66, R70). -/

namespace Sys2Proof

/-- Why a port word stands for no instruction (R70). -/
inductive DecodeReject where
  /-- A command word whose bits 7:4 or 31:16 are not zero. -/
  | reservedBits
  /-- A command word whose OP is in 0xA..0xF. -/
  | reservedOp
  /-- A line-event word whose KIND is 3. -/
  | reservedKind
deriving DecidableEq, Repr

/-- OP = w[3:0] (R63). -/
def opField (w : Word) : BitVec 4 := w.extractLsb' 0 4

/-- ARG = w[15:8] (R63), used as it stands. -/
def argField (w : Word) : Byte := w.extractLsb' 8 8

/-- w[7:4] and w[31:16] are zero (R63). -/
def reservedFieldsZero (w : Word) : Bool :=
  w.extractLsb' 4 4 == 0 && w.extractLsb' 16 16 == 0

/-- Format H (R63, R64). -/
def decodeCmd (w : Word) : Except DecodeReject Instr :=
  if reservedFieldsZero w then
    match (opField w).toNat with
    | 0 => .ok .nop
    | 1 => .ok .read
    | 2 => .ok .readEnv
    | 3 => .ok .clear
    | 4 => .ok (.pushBit (argField w))
    | 5 => .ok .pack
    | 6 => .ok .validate
    | 7 => .ok .assemble
    | 8 => .ok .decode
    | 9 => .ok .altScale
    | _ => .error .reservedOp
  else .error .reservedBits

/-- DIR = e[2]: 0 falling, 1 rising (R65). -/
def dirField (e : LineWord) : EdgeDir :=
  if e.getLsbD 2 then .rising else .falling

/-- TS = e[67:4] (R65). -/
def tsField (e : LineWord) : Nanos := e.extractLsb' 4 64

/-- CODE = e[35:4] (R65). -/
def codeField (e : LineWord) : Word := e.extractLsb' 4 32

/-- Format L (R65): KIND = e[1:0]. -/
def decodeLine (e : LineWord) : Except DecodeReject Instr :=
  match (e.extractLsb' 0 2).toNat with
  | 0 => .ok (.edge (dirField e) (tsField e))
  | 1 => .ok .endOfStream
  | 2 => .ok (.lineError (codeField e))
  | _ => .error .reservedKind

/-- Format T (R66): 0 is HOLD_DONE, 1 is DEADLINE. -/
def decodeTimer (c : BitVec 1) : Instr :=
  if c == 0 then .holdDone else .deadline

/-- The decoder: every word of every port is an instruction or a named rejection (R60). -/
def decodeWord : PortWord → Except DecodeReject Instr
  | .cmd w => decodeCmd w
  | .line e => decodeLine e
  | .timer c => .ok (decodeTimer c)

/-- A command word with this OP and this ARG and all reserved bits zero (R63). -/
def cmdWord (op : BitVec 4) (arg : Byte) : Word :=
  (0 : BitVec 16) ++ arg ++ (0 : BitVec 4) ++ op

/-- DIR's code (R65). -/
def EdgeDir.bit : EdgeDir → BitVec 1
  | .falling => 0
  | .rising => 1

/-- A line-event word from its PAYLOAD, DIR and KIND, bit 3 zero (R65). -/
def lineWord (payload : BitVec 64) (dir : BitVec 1) (kind : BitVec 2) : LineWord :=
  payload ++ (0 : BitVec 1) ++ dir ++ kind

/-- The encoder: the word of an instruction, with every ignored bit zero (R63 to R66, R73). -/
def encodeWord : Instr → PortWord
  | .nop => .cmd (cmdWord 0 0)
  | .read => .cmd (cmdWord 1 0)
  | .readEnv => .cmd (cmdWord 2 0)
  | .clear => .cmd (cmdWord 3 0)
  | .pushBit arg => .cmd (cmdWord 4 arg)
  | .pack => .cmd (cmdWord 5 0)
  | .validate => .cmd (cmdWord 6 0)
  | .assemble => .cmd (cmdWord 7 0)
  | .decode => .cmd (cmdWord 8 0)
  | .altScale => .cmd (cmdWord 9 0)
  | .edge dir ts => .line (lineWord ts dir.bit 0)
  | .endOfStream => .line (lineWord 0 0 1)
  | .lineError code => .line (lineWord (code.setWidth 64) 0 2)
  | .holdDone => .timer 0
  | .deadline => .timer 1

/-- The word with every bit its instruction ignores set to zero (R70 c, d): ARG of a command other than PUSHBIT,
bit 3 of a line-event word, DIR and the unused payload bits of END and ERROR. -/
def PortWord.canonical : PortWord → PortWord
  | .cmd w => .cmd (if opField w == 4 then w else w &&& 0xFFFF00FF)
  | .line e =>
    .line (match (e.extractLsb' 0 2).toNat with
      | 0 => e &&& 0xFFFFFFFFFFFFFFFF7
      | 1 => e &&& 0x3
      | 2 => e &&& 0x00000000FFFFFFFF3
      | _ => e)
  | .timer c => .timer c

/-- Which port word the host's numbering of a table row stands for (log entry 2). A row of format H is 32 bits, one of
format L 68 bits (72 in whole bytes), one of format T a single bit (8 in whole bytes). A word of at most 8 bits
with a bit above bit 0 set is no timer code and is read as a line-event word with its payload absent. -/
def tableWord (nbits w : Nat) : PortWord :=
  if nbits ≤ 8 then
    if w ≤ 1 then .timer (BitVec.ofNat 1 w) else .line (BitVec.ofNat 68 w)
  else if nbits ≤ 32 then .cmd (BitVec.ofNat 32 w)
  else .line (BitVec.ofNat 68 w)

/-- The instruction the decoder reads from a table row's word; none where it rejects. -/
def decodeTableWord (nbits w : Nat) : Option Instr :=
  match decodeWord (tableWord nbits w) with
  | .ok i => some i
  | .error _ => none

end Sys2Proof
end

