-- ==== Sys2Proof/Machine/State.lean ====
section
/-! DEFINITION. The state of the block as plain data: every element of spec/10_state.md R10, and beside them four
fields of the MODEL's own (the build parameters, the input NOW of the step, the inputs still to come, and the value
the last host read returned), which the spec makes parameters, inputs and outputs and not state (R29).
`State.reset` is R30. -/

namespace Sys2Proof.Machine

/-- STATE, the sequencer (R11). -/
inductive SeqState where
  | idle
  | startPulseSent
  | awaitingAck
  | collectingBits
  | complete
  | faulted
deriving DecidableEq, Repr

/-- PHASE (R13): `A` awaits the first edge of a pair, `B` the second. -/
inductive Phase where
  | A
  | B
deriving DecidableEq, Repr

/-- OPSEL (R14): which START command was accepted last. -/
inductive OpSel where
  | read
  | readEnv
deriving DecidableEq, Repr

/-- LINE, the mode of the GpioLine (R15). -/
inductive LineMode where
  | unclaimed
  | outLow
  | edgeIn
deriving DecidableEq, Repr

/-- FLT_KIND (R21, R69). -/
inductive FaultKind where
  | none
  | hardware
  | protocol
  | timeout
  | decode
deriving DecidableEq, Repr

/-- FLT_CLASS (R21, R69): the two arms of the source's ReadError. -/
inductive FaultClass where
  | sensor
  | conversion
deriving DecidableEq, Repr

/-- Who presents the timer events of a step (R168): the block's own timers (the timed view, R166 and R167), or the
environment, which then says for each of the two whether it is present. -/
inductive TimerView where
  | timed
  | untimed (deadline holdDone : Bool)
deriving DecidableEq, Repr

/-- Everything the outside world presents in one step (R161): at most one of each. -/
structure StepInput where
  /-- NOW (R24). -/
  now : Nanos
  /-- The reset input, as the event RESET (R180). -/
  reset : Bool
  /-- Where the DEADLINE and HOLD_DONE events of the step come from (R166 to R168). -/
  timers : TimerView
  /-- A word on the line-event port (R48, R65). -/
  lineEvent : Option LineWord
  /-- A host write: register number and value (R42). -/
  hostWrite : Option (Nat × Word)
  /-- A host read: register number (R41). -/
  hostRead : Option Nat
deriving DecidableEq, Repr

/-- The state. The first group is R10, element by element; the second is the model's own. -/
structure State where
  /-- STATE (R11). -/
  fsm : SeqState
  /-- BITCNT (R12). -/
  bitcnt : Byte
  /-- PHASE (R13). -/
  phase : Phase
  /-- TS_A (R13). -/
  tsA : Nanos
  /-- OPSEL (R14). -/
  opsel : OpSel
  /-- LINE (R15). -/
  line : LineMode
  /-- BITBUF[0..39] (R16). -/
  bitbuf : Vector Byte 40
  /-- FRAME[0..4] (R17). -/
  frame : Vector Byte 5
  /-- FRAME_V (R17). -/
  frameV : Bool
  /-- CHK_V (R17). -/
  chkV : Bool
  /-- RDY (R19). -/
  rdy : Bool
  /-- ALT_V (R20). -/
  altV : Bool
  /-- HUM_RAW (R18). -/
  humRaw : BitVec 16
  /-- TEMP_RAW (R18). -/
  tempRaw : BitVec 16
  /-- HUM_F (R19): the bit pattern, in the low 32 bits when FLOAT_FMT is binary32 (log entry 3). -/
  humF : BitVec 64
  /-- TEMP_F (R19). -/
  tempF : BitVec 64
  /-- ALT_HUM_F (R20). -/
  altHumF : BitVec 64
  /-- ALT_TEMP_F (R20). -/
  altTempF : BitVec 64
  /-- FLT_V (R21). -/
  fltV : Bool
  /-- FLT_KIND (R21). -/
  fltKind : FaultKind
  /-- FLT_SUB (R21, R69). -/
  fltSub : BitVec 2
  /-- FLT_CLASS (R21). -/
  fltClass : FaultClass
  /-- HWERR (R21). -/
  hwerr : Word
  /-- REJ (R22). -/
  rej : Bool
  /-- The register DEADLINE (R23). -/
  deadline : Word
  /-- T0 (R24). -/
  t0 : Nanos
  /-- MODEL's own (log entry 5): the build parameters; no step writes them. -/
  params : Params
  /-- MODEL's own (log entry 11): the input NOW of the step being taken (R24). -/
  now : Nanos
  /-- MODEL's own (log entry 1): what the outside world presents in the steps to come, the next first (R7, R48). -/
  inputs : List StepInput
  /-- MODEL's own (log entry 11): the value the most recent host read returned (R41). -/
  readData : Option Word
deriving DecidableEq, Repr

/-- A step of this machine never stops with a fault: the spec has no input on which its step function is undefined
(R90; spec/93_implementation_defined.md part 1), and a Fault of the spec is recorded in the fault record of the
state (R157). The type is therefore empty: nothing raises a member of it. -/
inductive Fault where
deriving DecidableEq, Repr

/-- What a step can be refused for. The spec's own refusal is not one of these: it is a next state with REJ set (R130). -/
inductive Refusal where
  /-- Raised by an arm of exec that has no meaning yet; safe. No arm of this model raises it. -/
  | notModelled (mnemonic : String)
deriving DecidableEq, Repr

/-- Every element at its reset value (R30) for the given build parameters, with no input to come. -/
def State.resetWith (p : Params) : State where
  fsm := .idle
  bitcnt := 0
  phase := .A
  tsA := 0
  opsel := .read
  line := .unclaimed
  bitbuf := Vector.replicate 40 0
  frame := Vector.replicate 5 0
  frameV := false
  chkV := false
  rdy := false
  altV := false
  humRaw := 0
  tempRaw := 0
  humF := 0
  tempF := 0
  altHumF := 0
  altTempF := 0
  fltV := false
  fltKind := .none
  fltSub := 0
  fltClass := .sensor
  hwerr := 0
  rej := false
  deadline := p.deadlineResetNs
  t0 := 0
  params := p
  now := 0
  inputs := []
  readData := none

/-- The machine right after reset (R30, R180), with the parameters of Config. -/
def State.reset : State := State.resetWith Config.params

end Sys2Proof.Machine
end

