-- ==== Sys2Proof/Machine/Ops.lean ====
section
/-! DEFINITION. The named operations several rules share: refusing, accepting, clearing the results of a read, starting a
read, appending to the bit buffer, reset, and FAULT ENTRY (spec/60_exceptions.md R157), the one operation that takes
this block's exceptions; there is no return from one (R158 e). -/

namespace Sys2Proof.Machine

/-- BUSY (R8, R25, R130): a read is in flight. -/
def State.busy (s : State) : Bool :=
  match s.fsm with
  | .startPulseSent => true
  | .awaitingAck => true
  | .collectingBits => true
  | .idle => false
  | .complete => false
  | .faulted => false

/-- DONE (R25): a terminal state. -/
def State.done (s : State) : Bool :=
  match s.fsm with
  | .complete => true
  | .faulted => true
  | .idle => false
  | .startPulseSent => false
  | .awaitingAck => false
  | .collectingBits => false

/-- `refuse` (R8, R130): REJ <- 1 and nothing else. -/
def refuse (s : State) : State := { s with rej := true }

/-- The last write of every accepted command or DEADLINE write: REJ <- 0 (R130, R22). -/
def accepted (s : State) : State := { s with rej := false }

/-- FAULT ENTRY, R157: the fault record is written whole, and a fault that ends a read in flight moves STATE to
Faulted. There is no vector, no handler, no saved context and no change of privilege. -/
def raiseFault (kind : FaultKind) (sub : BitVec 2) (cls : FaultClass) (code : Word) (endsRead : Bool)
    (s : State) : State :=
  { s with
    fltV := true
    fltKind := kind
    fltSub := sub
    fltClass := cls
    hwerr := code
    fsm := if endsRead then .faulted else s.fsm }

/-- The sub-kinds of R69. -/
def subNone : BitVec 2 := 0
def subBadRead : BitVec 2 := 0
def subInvalidAck : BitVec 2 := 1
def subUnexpectedInput : BitVec 2 := 0
def subBadChecksum : BitVec 2 := 1

/-- What START (R80) and CLEAR (R133) both do: every result of an earlier read or framer run, and the fault
record, back to zero. -/
def clearResults (s : State) : State :=
  { s with
    bitbuf := Vector.replicate 40 0
    bitcnt := 0
    phase := .A
    tsA := 0
    frame := Vector.replicate 5 0
    frameV := false
    chkV := false
    rdy := false
    altV := false
    humRaw := 0
    tempRaw := 0
    humF := 0
    tempF := 0
    altHumF := 0
    altTempF := 0
    fltV := false
    fltKind := .none
    fltSub := 0
    fltClass := .sensor
    hwerr := 0 }

/-- START (R80) but for its REJ write, with OPSEL <- `op`: the results are discarded, the start time is recorded and
the line is claimed as an output driving low. -/
def startRead (op : OpSel) (s : State) : State :=
  { clearResults s with
    opsel := op
    t0 := s.now
    line := .outLow
    fsm := .startPulseSent }

/-- A store into the bit buffer at index BITCNT, only while BITCNT < 40: beyond the 40 elements nothing is stored
(R53, R134); the count is the caller's. -/
def storeElement (v : Byte) (s : State) : State :=
  { s with bitbuf := s.bitbuf.setIfInBounds s.bitcnt.toNat v }

/-- RESET (R180): every element of R30 at its reset value. The parameters are not state (R29), and the inputs to
come, NOW and the value of the last host read are outside the block, so they stay. -/
def applyReset (s : State) : State :=
  { State.resetWith s.params with
    now := s.now
    inputs := s.inputs
    readData := s.readData }

/-- Sequencing of meanings inside one step (R161): what stops the first stops the step. -/
def andThen (o : Host.Outcome State Fault Refusal) (f : State → Host.Outcome State Fault Refusal) :
    Host.Outcome State Fault Refusal :=
  match o with
  | .next s => f s
  | .fault r => .fault r
  | .refused r => .refused r

end Sys2Proof.Machine
end

