-- ==== Sys2Proof/Machine/Operands.lean ====
section
/-! DEFINITION. The pure functions the rules apply to their operands (BITOF, PACKBYTE, the checksum, the raw values), the
codes of the enumerated registers, and the views of the state the host reads and the pins show
(spec/10_state.md R25 to R27, spec/20_memory.md R43, spec/30_encoding.md R67 to R69). -/

namespace Sys2Proof.Machine

/-- BITOF (R86): the interval modulo 2^64, unsigned, against the threshold. -/
def bitOf (a b : Nanos) : Byte :=
  if b - a < Config.threshNs then 0 else 1

/-- One turn of PACKBYTE's loop (R112): an element that is 0 or 1 is shifted in, any other is skipped. -/
def packElement (acc v : Byte) : Byte :=
  if v = 0 ∨ v = 1 then (acc <<< 1) ||| v else acc

/-- PACKBYTE (R112) of the elements `8g .. 8g+7` of the buffer. -/
def packByte (buf : Vector Byte 40) (g : Nat) : Byte :=
  ((buf.toList.drop (8 * g)).take 8).foldl packElement 0

/-- The five bytes PACK writes (R111). -/
def packFrame (buf : Vector Byte 40) : Vector Byte 5 :=
  Vector.ofFn fun g => packByte buf g.val

/-- The sum of the first four bytes modulo 256 (R113). -/
def checksum (fr : Vector Byte 5) : Byte := fr[0] + fr[1] + fr[2] + fr[3]

/-- HUM_RAW's value: bytes 0 and 1, big-endian (R47, R114). -/
def humRawOf (fr : Vector Byte 5) : BitVec 16 := fr[0] ++ fr[1]

/-- TEMP_RAW's value: bytes 2 and 3, big-endian (R47, R114). -/
def tempRawOf (fr : Vector Byte 5) : BitVec 16 := fr[2] ++ fr[3]

/-- The codes of STATE (R67). -/
def SeqState.code : SeqState → BitVec 3
  | .idle => 0
  | .startPulseSent => 1
  | .awaitingAck => 2
  | .collectingBits => 3
  | .complete => 4
  | .faulted => 5

/-- The codes of LINE (R68). -/
def LineMode.code : LineMode → BitVec 2
  | .unclaimed => 0
  | .outLow => 1
  | .edgeIn => 2

/-- The codes of PHASE (R13). -/
def Phase.code : Phase → BitVec 1
  | .A => 0
  | .B => 1

/-- The codes of OPSEL (R14). -/
def OpSel.code : OpSel → BitVec 1
  | .read => 0
  | .readEnv => 1

/-- The codes of FLT_KIND (R69). -/
def FaultKind.code : FaultKind → BitVec 3
  | .none => 0
  | .hardware => 1
  | .protocol => 2
  | .timeout => 3
  | .decode => 4

/-- The codes of FLT_CLASS (R69). -/
def FaultClass.code : FaultClass → BitVec 1
  | .sensor => 0
  | .conversion => 1

/-- A flag as one bit. -/
def bit1 (b : Bool) : BitVec 1 := BitVec.ofBool b

/-- STATUS (R25), bit 31 first. -/
def statusView (s : State) : Word :=
  (0 : BitVec 9) ++ s.opsel.code ++ bit1 s.rej ++ bit1 s.chkV ++ bit1 s.frameV ++ s.phase.code ++ s.line.code
    ++ s.bitcnt ++ bit1 s.fltV ++ bit1 s.altV ++ bit1 s.rdy ++ bit1 s.done ++ bit1 s.busy ++ s.fsm.code

/-- FAULT (R26), bit 31 first; 0 while no fault is recorded. -/
def faultView (s : State) : Word :=
  if s.fltV then
    (0 : BitVec 23) ++ s.fltClass.code ++ (0 : BitVec 2) ++ s.fltSub ++ (0 : BitVec 1) ++ s.fltKind.code
  else 0

/-- FRAME_DATA (R27). -/
def frameDataView (s : State) : Word := s.frame[0] ++ s.frame[1] ++ s.frame[2] ++ s.frame[3]

/-- FRAME_CHK (R27). -/
def frameChkView (s : State) : Word := s.frame[4].setWidth 32

/-- RAW (R27). -/
def rawView (s : State) : Word := s.humRaw ++ s.tempRaw

/-- A `_LO` register: bits 31:0 of the pattern (R27). -/
def floatLo (x : BitVec 64) : Word := x.extractLsb' 0 32

/-- A `_HI` register: bits 63:32 of a binary64 pattern, and 0 with binary32 (R27). -/
def floatHi (f : FloatFmt) (x : BitVec 64) : Word :=
  match f with
  | .binary32 => 0
  | .binary64 => x.extractLsb' 32 32

/-- Element `i` of the bit buffer, 0 outside it (no register shows an index outside it). -/
def element (s : State) (i : Nat) : Byte := s.bitbuf.toList.getD i 0

/-- BITSk (R27), `k` in 0..9. -/
def bitsView (s : State) (k : Nat) : Word :=
  element s (4 * k) ++ element s (4 * k + 1) ++ element s (4 * k + 2) ++ element s (4 * k + 3)

/-- A host read x[i] (R41, R43): the value of one state; an unmapped number and CMD read 0. -/
def hostRead (i : Nat) (s : State) : Word :=
  match i with
  | 0 => 0
  | 1 => statusView s
  | 2 => faultView s
  | 3 => s.hwerr
  | 4 => s.deadline
  | 5 => frameDataView s
  | 6 => frameChkView s
  | 7 => rawView s
  | 8 => floatLo s.humF
  | 9 => floatHi s.params.floatFmt s.humF
  | 10 => floatLo s.tempF
  | 11 => floatHi s.params.floatFmt s.tempF
  | 12 => floatLo s.altHumF
  | 13 => floatHi s.params.floatFmt s.altHumF
  | 14 => floatLo s.altTempF
  | 15 => floatHi s.params.floatFmt s.altTempF
  | i => if 16 ≤ i ∧ i ≤ 25 then bitsView s (i - 16) else 0

/-- The stream of edge events is open (R15). -/
def State.streamOpen (s : State) : Bool :=
  match s.fsm with
  | .awaitingAck => true
  | .collectingBits => true
  | .idle => false
  | .startPulseSent => false
  | .complete => false
  | .faulted => false

/-- The line-control outputs (R15, R170): the block never drives high. -/
def lineOe (s : State) : Bool := s.line == .outLow
def lineOut (_ : State) : Bool := false
def edgeEn (s : State) : Bool := s.streamOpen

/-- The host-side outputs (R171). -/
def busyOut (s : State) : Bool := s.busy
def doneOut (s : State) : Bool := s.done
def irqOut (s : State) : Bool := s.done

end Sys2Proof.Machine
end

