-- ==== Sys2Proof/Machine/Flags.lean ====
section
/-! DEFINITION. The flag discipline: the acceptance of a command (spec/42_host.md R130) and the two timers' presence
conditions (spec/60_exceptions.md R166, R167). -/

namespace Sys2Proof.Machine

/-- R130 after the reserved-encoding and NOP cases: while BUSY the command is refused; where its needed flag is 0 it is
refused; else its rule runs and REJ is cleared. -/
def acceptCmd (flag : Bool) (rule : State → State) (s : State) : Host.Outcome State Fault Refusal :=
  if s.busy then .next (refuse s)
  else if flag then .next (accepted (rule s))
  else .next (refuse s)

/-- HOLD_DONE is present in a timed step (R166), on the state before the step and the step's NOW. -/
def holdFires (now : Nanos) (s : State) : Bool :=
  s.fsm == .startPulseSent && decide (s.params.tHoldNs ≤ now - s.t0)

/-- DEADLINE is present in a timed step (R167). -/
def deadlineFires (now : Nanos) (s : State) : Bool :=
  s.busy && decide (s.deadline.setWidth 64 ≤ now - s.t0)

/-- DEADLINE is present in a step with this input (R167, R168). -/
def deadlinePresent (inp : StepInput) (s : State) : Bool :=
  match inp.timers with
  | .timed => deadlineFires inp.now s
  | .untimed d _ => d

/-- HOLD_DONE is present in a step with this input (R166, R168). -/
def holdPresent (inp : StepInput) (s : State) : Bool :=
  match inp.timers with
  | .timed => holdFires inp.now s
  | .untimed _ h => h

end Sys2Proof.Machine
end

