-- ==== Sys2Proof/Machine/Float.lean ====
section
/-! DEFINITION. The float primitives u16_to_f, fconst, fdiv, fmul, fadd of spec/41_framer.md R121 in the two formats of
spec/30_encoding.md R72, exactly: a finite value is a sign and a whole number of units, the unit being the smallest
positive value of the format, so the exact result of an operation is a quotient of two natural numbers and is rounded
once, to nearest, ties to even. -/

namespace Sys2Proof.Machine

/-- Width of the fraction field (R72). -/
def fracBits : FloatFmt → Nat
  | .binary32 => 23
  | .binary64 => 52

/-- Width of the exponent field (R72). -/
def expBits : FloatFmt → Nat
  | .binary32 => 8
  | .binary64 => 11

/-- The bias of the exponent field (R72). -/
def expBias : FloatFmt → Nat
  | .binary32 => 127
  | .binary64 => 1023

/-- How many units make 1.0, as a power of two: bias - 1 + fraction width (R72). -/
def unitsLog (f : FloatFmt) : Nat := expBias f - 1 + fracBits f

/-- How many units make 1.0. -/
def unitsPerOne (f : FloatFmt) : Nat := 2 ^ unitsLog f

/-- Width of the whole pattern (R72). -/
def floatWidth (f : FloatFmt) : Nat := 1 + expBits f + fracBits f

/-- The exponent field, all ones for an infinity or a NaN (R72). -/
def expField (f : FloatFmt) (x : BitVec 64) : Nat :=
  x.toNat / 2 ^ fracBits f % 2 ^ expBits f

/-- The fraction field (R72). -/
def fracField (f : FloatFmt) (x : BitVec 64) : Nat :=
  x.toNat % 2 ^ fracBits f

/-- The sign bit (R72). -/
def signBit (f : FloatFmt) (x : BitVec 64) : Bool :=
  x.getLsbD (expBits f + fracBits f)

/-- The pattern denotes a finite number (R72). -/
def isFinite (f : FloatFmt) (x : BitVec 64) : Bool :=
  expField f x != 2 ^ expBits f - 1

/-- The magnitude of a finite pattern, as a whole number of units (R72). -/
def magnitude (f : FloatFmt) (x : BitVec 64) : Nat :=
  if expField f x = 0 then fracField f x
  else (2 ^ fracBits f + fracField f x) * 2 ^ (expField f x - 1)

/-- The integer nearest to `num / den`, ties to even (R118). -/
def roundNE (num den : Nat) : Nat :=
  let q := num / den
  let r := num % den
  if 2 * r < den then q
  else if den < 2 * r then q + 1
  else q + q % 2

/-- The magnitude bits of the value of the format nearest to `num / den` units, ties to even, an overflow being the
infinity's pattern (R121, R72). The spacing of the format around that value is `2 ^ k` units. -/
def roundMagnitude (f : FloatFmt) (num den : Nat) : Nat :=
  let k := Nat.log2 (num / den) - fracBits f
  min (k * 2 ^ fracBits f + roundNE num (den * 2 ^ k)) ((2 ^ expBits f - 1) * 2 ^ fracBits f)

/-- A sign and magnitude bits put together (R72). -/
def packFloat (f : FloatFmt) (neg : Bool) (bits : Nat) : BitVec 64 :=
  BitVec.ofNat 64 (bits + if neg then 2 ^ (expBits f + fracBits f) else 0)

/-- The value of the format nearest to the exact number of units `num / den`, with this sign. -/
def roundFloat (f : FloatFmt) (neg : Bool) (num den : Nat) : BitVec 64 :=
  packFloat f neg (roundMagnitude f num den)

/-- A free pattern cut to the format's width. -/
def openPattern (f : FloatFmt) (x : BitVec 64) : BitVec 64 :=
  BitVec.ofNat 64 (x.toNat % 2 ^ floatWidth f)

/-- u16_to_f (R121). -/
def u16ToF (f : FloatFmt) (v : BitVec 16) : BitVec 64 :=
  roundFloat f false (v.toNat * unitsPerOne f) 1

/-- fconst (R121) of the decimal literal `num / den`. -/
def fconst (f : FloatFmt) (num den : Nat) : BitVec 64 :=
  roundFloat f false (num * unitsPerOne f) den

/-- fdiv (R121). -/
def fdiv (f : FloatFmt) (a b : BitVec 64) : BitVec 64 :=
  if isFinite f a && isFinite f b && magnitude f b != 0 then
    roundFloat f (signBit f a != signBit f b) (magnitude f a * unitsPerOne f) (magnitude f b)
  else openPattern f (Config.fdivOpen f a b)

/-- fmul (R121). -/
def fmul (f : FloatFmt) (a b : BitVec 64) : BitVec 64 :=
  if isFinite f a && isFinite f b then
    roundFloat f (signBit f a != signBit f b) (magnitude f a * magnitude f b) (unitsPerOne f)
  else openPattern f (Config.fmulOpen f a b)

/-- fadd (R121). Operands of opposite sign and equal magnitude give +0.0, as rounding to nearest has it. -/
def fadd (f : FloatFmt) (a b : BitVec 64) : BitVec 64 :=
  if isFinite f a && isFinite f b then
    if signBit f a == signBit f b then
      roundFloat f (signBit f a) (magnitude f a + magnitude f b) 1
    else if magnitude f b < magnitude f a then
      roundFloat f (signBit f a) (magnitude f a - magnitude f b) 1
    else if magnitude f a < magnitude f b then
      roundFloat f (signBit f b) (magnitude f b - magnitude f a) 1
    else roundFloat f false 0 1
  else openPattern f (Config.faddOpen f a b)

/-- The constants 10.0, 1.8 and 32.0 (R5, R119, R120). -/
def fTen (f : FloatFmt) : BitVec 64 := fconst f 10 1
def fAltMul (f : FloatFmt) : BitVec 64 := fconst f 18 10
def fAltAdd (f : FloatFmt) : BitVec 64 := fconst f 32 1

/-- A raw value in tenths as a float (R114). -/
def tenths (f : FloatFmt) (raw : BitVec 16) : BitVec 64 :=
  fdiv f (u16ToF f raw) (fTen f)

/-- temp * 1.8 + 32.0 with two roundings (R116, R120). -/
def altTemp (f : FloatFmt) (temp : BitVec 64) : BitVec 64 :=
  fadd f (fmul f temp (fAltMul f)) (fAltAdd f)

end Sys2Proof.Machine
end

