-- ==== Sys2Proof/Machine/Framer.lean ====
section
/-! DEFINITION. The Bit Framer (spec/41_framer.md): PACK, VALIDATE, ASSEMBLE, DECODE, ALTSCALE. Each stage is one function
without the REJ write, so that a command, DECODE and the completion of a READENV run the same text. -/

namespace Sys2Proof.Machine

/-- PACK without its REJ write (R111): on a length other than 40 nothing is packed. -/
def packStage (s : State) : State :=
  let s := { s with chkV := false, rdy := false, altV := false }
  if s.bitcnt ≠ 40 then
    raiseFault .decode subUnexpectedInput .conversion 0 false { s with frameV := false }
  else { s with frame := packFrame s.bitbuf, frameV := true }

/-- VALIDATE without its flag check and its REJ write (R113). -/
def validateStage (s : State) : State :=
  let s := { s with rdy := false, altV := false }
  if checksum s.frame = s.frame[4] then { s with chkV := true }
  else raiseFault .decode subBadChecksum .conversion 0 false { s with chkV := false }

/-- ASSEMBLE without its flag check and its REJ write (R114). -/
def assembleStage (s : State) : State :=
  { s with
    altV := false
    humRaw := humRawOf s.frame
    tempRaw := tempRawOf s.frame
    humF := tenths s.params.floatFmt (humRawOf s.frame)
    tempF := tenths s.params.floatFmt (tempRawOf s.frame)
    rdy := true }

/-- DECODE without its REJ write (R115): a stage that fails stops the pipeline. -/
def decodeStages (s : State) : State :=
  let s1 := packStage s
  if s1.frameV then
    let s2 := validateStage s1
    if s2.chkV then assembleStage s2 else s2
  else s1

/-- ALTSCALE without its flag check and its REJ write (R116). -/
def altScaleStage (s : State) : State :=
  { s with
    altHumF := s.humF
    altTempF := altTemp s.params.floatFmt s.tempF
    altV := true }

/-- PACK as a command (R111, R130). -/
def execPack (s : State) : Host.Outcome State Fault Refusal := acceptCmd true packStage s

/-- VALIDATE as a command: accepted only when FRAME_V = 1 (R113). -/
def execValidate (s : State) : Host.Outcome State Fault Refusal := acceptCmd s.frameV validateStage s

/-- ASSEMBLE as a command: accepted only when CHK_V = 1 (R114). -/
def execAssemble (s : State) : Host.Outcome State Fault Refusal := acceptCmd s.chkV assembleStage s

/-- DECODE as a command; STATE is unchanged even on failure (R115, R157). -/
def execDecode (s : State) : Host.Outcome State Fault Refusal := acceptCmd true decodeStages s

/-- ALTSCALE as a command: accepted only when RDY = 1 (R116). -/
def execAltScale (s : State) : Host.Outcome State Fault Refusal := acceptCmd s.rdy altScaleStage s

end Sys2Proof.Machine
end

