-- ==== Sys2Proof/Machine/Driver.lean ====
section
/-! DEFINITION. The events of a read (spec/40_driver.md): HOLD_DONE, EDGE with the acknowledgment check, the bit capture and
the completion, END, ERROR and DEADLINE. An event nobody awaits is dropped: nothing changes (R90, R159). -/

namespace Sys2Proof.Machine

/-- HOLD_DONE (R81): release and reconfiguration as an edge input are one action. -/
def execHoldDone (s : State) : Host.Outcome State Fault Refusal :=
  match s.fsm with
  | .startPulseSent => .next { s with line := .edgeIn, fsm := .awaitingAck }
  | .idle => .next s
  | .awaitingAck => .next s
  | .collectingBits => .next s
  | .complete => .next s
  | .faulted => .next s

/-- The acknowledgment check (R83); the timestamp is neither used nor kept. -/
def ackCheck (dir : EdgeDir) (s : State) : State :=
  match dir with
  | .falling => { s with fsm := .collectingBits }
  | .rising => raiseFault .protocol subInvalidAck .sensor 0 true s

/-- Completion (R85): READ ends in Complete; READENV runs the framer and ends in Complete if it succeeded (RDY = 1),
else in Faulted, with the fault the failing stage recorded. -/
def completeRead (s : State) : State :=
  match s.opsel with
  | .read => { s with fsm := .complete }
  | .readEnv =>
    let d := decodeStages s
    { d with fsm := if d.rdy then .complete else .faulted }

/-- A captured bit appended to the bit buffer, the next edge awaited being the first of a pair (R84). -/
def captureBit (b : Byte) (s : State) : State :=
  { storeElement b s with bitcnt := s.bitcnt + 1, phase := .A }

/-- The bit capture (R84): the first edge of a pair is time-stamped, the second makes a bit; the 40th bit completes
the read in the same step. The direction is not examined (R92). -/
def captureEdge (ts : Nanos) (s : State) : State :=
  match s.phase with
  | .A => { s with tsA := ts, phase := .B }
  | .B =>
    let t := captureBit (bitOf s.tsA ts) s
    if t.bitcnt = 40 then completeRead t else t

/-- EDGE (R82). -/
def execEdge (dir : EdgeDir) (ts : Nanos) (s : State) : Host.Outcome State Fault Refusal :=
  match s.fsm with
  | .awaitingAck => .next (ackCheck dir s)
  | .collectingBits => .next (captureEdge ts s)
  | .idle => .next s
  | .startPulseSent => .next s
  | .complete => .next s
  | .faulted => .next s

/-- END (R87): BadRead while an edge is awaited. -/
def execEndOfStream (s : State) : Host.Outcome State Fault Refusal :=
  if s.streamOpen then .next (raiseFault .protocol subBadRead .sensor 0 true s) else .next s

/-- A fault that may fall in the start pulse: from there the line is released (R88, R89). -/
def faultInFlight (kind : FaultKind) (code : Word) (s : State) : State :=
  match s.fsm with
  | .startPulseSent => { raiseFault kind subNone .sensor code true s with line := .unclaimed }
  | .awaitingAck => raiseFault kind subNone .sensor code true s
  | .collectingBits => raiseFault kind subNone .sensor code true s
  | .idle => s
  | .complete => s
  | .faulted => s

/-- ERROR (R88): a Hardware fault with the device's code, unmodified. -/
def execLineError (code : Word) (s : State) : Host.Outcome State Fault Refusal :=
  .next (faultInFlight .hardware code s)

/-- DEADLINE (R89): a Timeout fault. -/
def execDeadline (s : State) : Host.Outcome State Fault Refusal :=
  .next (faultInFlight .timeout 0 s)

end Sys2Proof.Machine
end

