-- ==== Sys2Proof/Machine/HostCommands.lean ====
section
/-! DEFINITION. The host commands that are neither the driver's nor the framer's: NOP, CLEAR, PUSHBIT (spec/42_host.md),
with the two START commands READ (spec/40_driver.md R80) and READENV (R131). -/

namespace Sys2Proof.Machine

/-- NOP (R132): accepted in every state, BUSY included. -/
def execNop (s : State) : Host.Outcome State Fault Refusal := .next (accepted s)

/-- READ = START(0) (R80). -/
def execRead (s : State) : Host.Outcome State Fault Refusal := acceptCmd true (startRead .read) s

/-- READENV = START(1) (R131). -/
def execReadEnv (s : State) : Host.Outcome State Fault Refusal := acceptCmd true (startRead .readEnv) s

/-- CLEAR's writes (R133); LINE, DEADLINE and T0 are not written. -/
def clearBlock (s : State) : State :=
  { clearResults s with
    fsm := .idle
    opsel := .read }

/-- CLEAR (R133). -/
def execClear (s : State) : Host.Outcome State Fault Refusal := acceptCmd true clearBlock s

/-- min(BITCNT + 1, 255) (R134). -/
def satInc (c : Byte) : Byte := if c = 255 then 255 else c + 1

/-- PUSHBIT's writes (R134): stored while BITCNT < 40, always counted. -/
def pushElement (arg : Byte) (s : State) : State :=
  { storeElement arg s with bitcnt := satInc s.bitcnt }

/-- PUSHBIT (R134). -/
def execPushBit (arg : Byte) (s : State) : Host.Outcome State Fault Refusal :=
  acceptCmd true (pushElement arg) s

/-- The DEADLINE write (R135, R42): refused while BUSY. -/
def writeDeadline (v : Word) (s : State) : State :=
  if s.busy then refuse s else accepted { s with deadline := v }

end Sys2Proof.Machine
end

