-- ==== Sys2Proof/Machine/Dispatch.lean ====
section
/-! DEFINITION. One arm per instruction, one direct call of its meaning. -/

namespace Sys2Proof.Machine

/-- What the block does with one command or event, on the state it finds (R90, R130). -/
def exec (i : Instr) (s : State) : Host.Outcome State Fault Refusal :=
  match i with
  | .nop => Sys2Proof.Machine.execNop s
  | .read => Sys2Proof.Machine.execRead s
  | .readEnv => Sys2Proof.Machine.execReadEnv s
  | .clear => Sys2Proof.Machine.execClear s
  | .pushBit arg => Sys2Proof.Machine.execPushBit arg s
  | .pack => Sys2Proof.Machine.execPack s
  | .validate => Sys2Proof.Machine.execValidate s
  | .assemble => Sys2Proof.Machine.execAssemble s
  | .decode => Sys2Proof.Machine.execDecode s
  | .altScale => Sys2Proof.Machine.execAltScale s
  | .edge dir ts => Sys2Proof.Machine.execEdge dir ts s
  | .endOfStream => Sys2Proof.Machine.execEndOfStream s
  | .lineError code => Sys2Proof.Machine.execLineError code s
  | .holdDone => Sys2Proof.Machine.execHoldDone s
  | .deadline => Sys2Proof.Machine.execDeadline s

end Sys2Proof.Machine
end

