-- ==== Sys2Proof/Machine/Ports.lean ====
section
/-! DEFINITION. What one step does with the inputs presented in it (spec/60_exceptions.md R161): decoding each port's word,
running its meaning, in the order reset, DEADLINE, line event, HOLD_DONE, host write, with the host read answered from
the state before the step (spec/20_memory.md R41, R42). -/

namespace Sys2Proof.Machine

/-- A timer event that is present is its instruction (R66). -/
def presentTimer (c : BitVec 1) (isPresent : Bool) (s : State) : Host.Outcome State Fault Refusal :=
  if isPresent then exec (decodeTimer c) s else .next s

/-- A word on the line-event port; a reserved one is dropped (R65, R70 b). -/
def presentLine (e : Option LineWord) (s : State) : Host.Outcome State Fault Refusal :=
  match e with
  | none => .next s
  | some e =>
    match decodeWord (.line e) with
    | .ok i => exec i s
    | .error _ => .next s

/-- A command word written to CMD; a reserved one is refused in every state (R130, R70 a). -/
def execCmd (w : Word) (s : State) : Host.Outcome State Fault Refusal :=
  match decodeWord (.cmd w) with
  | .ok i => exec i s
  | .error _ => .next (refuse s)

/-- A host write x[i] <- v (R42): CMD, DEADLINE, or dropped. -/
def hostWrite (i : Nat) (v : Word) (s : State) : Host.Outcome State Fault Refusal :=
  match i with
  | 0 => execCmd v s
  | 4 => .next (writeDeadline v s)
  | _ => .next s

/-- The host write of a step, if any. -/
def presentWrite (x : Option (Nat × Word)) (s : State) : Host.Outcome State Fault Refusal :=
  match x with
  | none => .next s
  | some (i, v) => hostWrite i v s

/-- The host read of a step, if any, answered from the state before the step (R41, R161). -/
def answerRead (x : Option Nat) (s : State) : State :=
  match x with
  | none => s
  | some i => { s with readData := some (hostRead i s) }

/-- One step with this input (R161). Both timers are evaluated on the state before the step (R166, R167). -/
def takeInput (inp : StepInput) (s : State) : Host.Outcome State Fault Refusal :=
  if inp.reset then .next (applyReset (answerRead inp.hostRead s))
  else
    andThen (presentTimer 1 (deadlinePresent inp s) (answerRead inp.hostRead s)) fun s1 =>
    andThen (presentLine inp.lineEvent s1) fun s2 =>
    andThen (presentTimer 0 (holdPresent inp s) s2) fun s3 =>
    presentWrite inp.hostWrite s3

/-- The next input is taken from the list and presented with its NOW. With none left nothing is presented, and the
controller "has no step of its own without an event" (R7): nothing changes. -/
def takeNext (s : State) : Host.Outcome State Fault Refusal :=
  match s.inputs with
  | [] => .next s
  | inp :: rest => takeInput inp { s with inputs := rest, now := inp.now }

/-- An input that presents nothing: no reset, no event, no access (the untimed view, R168). -/
def quietInput (now : Nanos) : StepInput where
  now := now
  reset := false
  timers := .untimed false false
  lineEvent := none
  hostWrite := none
  hostRead := none

/-- The input that presents one port word and nothing else: a write to CMD, a line event, or a timer event. -/
def presentWord (now : Nanos) (p : PortWord) : StepInput :=
  match p with
  | .cmd w => { quietInput now with hostWrite := some (0, w) }
  | .line e => { quietInput now with lineEvent := some e }
  | .timer c => { quietInput now with timers := .untimed (c == 1) (c == 0) }

/-- The state whose very next step presents this port word alone (log entry 2); NOW stands still. -/
def placeWord (p : PortWord) (s : State) : State :=
  { s with inputs := presentWord s.now p :: s.inputs }

end Sys2Proof.Machine
end

