-- ==== Sys2Proof/Machine/Step.lean ====
section
/-! DEFINITION. One step of the block, and the fixed name that makes a table row's word the next thing presented. -/

namespace Sys2Proof.Machine

/-- One step: the next input of the list is presented and processed (R7, R49, R161). -/
def step (s : State) : Host.Outcome State Fault Refusal := takeNext s

/-- The state whose next step presents the table row's word and nothing else (log entry 2). -/
def State.withFetchWord (s : State) (nbits w : Nat) : State := placeWord (tableWord nbits w) s

end Sys2Proof.Machine
end

