-- ==== Sys2Proof/Safety.lean ====
section
/-! DEFINITION. What a good state is: the invariants of spec/10_state.md R28, one named field each, with the closed
fault taxonomy of R69 and the alternate-scale Reading of R116; and the vocabulary the statements use: the signed
number of units a float pattern denotes, what it is to be an exact result rounded once, the fault record whole, the number
of edges a read has consumed, and a sequence of events. -/

namespace Sys2Proof.Machine

/-- A fault record that is one of the six faults of R69 and R150. -/
def sixFaults (k : FaultKind) (sub : BitVec 2) (c : FaultClass) : Prop :=
  (k = .hardware ∧ sub = 0 ∧ c = .sensor) ∨ (k = .protocol ∧ sub = 0 ∧ c = .sensor) ∨
  (k = .protocol ∧ sub = 1 ∧ c = .sensor) ∨ (k = .timeout ∧ sub = 0 ∧ c = .sensor) ∨
  (k = .decode ∧ sub = 0 ∧ c = .conversion) ∨ (k = .decode ∧ sub = 1 ∧ c = .conversion)

/-- R28. I-1 (STATE is one of six values, LINE one of three) is what the types say; I-12 speaks of a transition. -/
structure BlockInv (s : State) : Prop where
  /-- I-2. -/
  faulted_recorded : s.fsm = .faulted → s.fltV = true
  /-- I-3. -/
  start_pulse : s.fsm = .startPulseSent → s.line = .outLow ∧ s.bitcnt = 0 ∧ s.phase = .A
  /-- I-4. -/
  awaiting_ack : s.fsm = .awaitingAck → s.line = .edgeIn ∧ s.bitcnt = 0 ∧ s.phase = .A
  /-- I-5. -/
  collecting : s.fsm = .collectingBits → s.line = .edgeIn ∧ s.bitcnt.toNat ≤ 39
  /-- I-6, the flags. -/
  busy_flags : s.busy = true →
    s.frameV = false ∧ s.chkV = false ∧ s.rdy = false ∧ s.altV = false ∧ s.fltV = false
  /-- I-6, the registers. -/
  busy_zero : s.busy = true →
    s.frame = Vector.replicate 5 0 ∧ s.humRaw = 0 ∧ s.tempRaw = 0 ∧ s.humF = 0 ∧ s.tempF = 0 ∧
    s.altHumF = 0 ∧ s.altTempF = 0 ∧ s.hwerr = 0
  /-- I-7. -/
  alt_rdy : s.altV = true → s.rdy = true
  rdy_chk : s.rdy = true → s.chkV = true
  chk_frame : s.chkV = true → s.frameV = true
  /-- I-8. -/
  chk_sum : s.chkV = true →
    (s.frame[0].toNat + s.frame[1].toNat + s.frame[2].toNat + s.frame[3].toNat) % 256 = s.frame[4].toNat
  /-- I-9, the raw values. -/
  reading_raw : s.rdy = true →
    s.humRaw.toNat = s.frame[0].toNat * 256 + s.frame[1].toNat ∧
    s.tempRaw.toNat = s.frame[2].toNat * 256 + s.frame[3].toNat
  /-- I-9, the floats. -/
  reading_float : s.rdy = true →
    s.humF = fdiv s.params.floatFmt (u16ToF s.params.floatFmt s.humRaw) (fconst s.params.floatFmt 10 1) ∧
    s.tempF = fdiv s.params.floatFmt (u16ToF s.params.floatFmt s.tempRaw) (fconst s.params.floatFmt 10 1)
  /-- R116: the alternate-scale Reading is that of the primary Reading. -/
  alt_reading : s.altV = true →
    s.altHumF = s.humF ∧
    s.altTempF = fadd s.params.floatFmt (fmul s.params.floatFmt s.tempF (fconst s.params.floatFmt 18 10))
      (fconst s.params.floatFmt 32 1)
  /-- I-10. -/
  drives : s.line = .outLow ↔ s.fsm = .startPulseSent
  /-- I-11, beyond the count. -/
  bits_above : ∀ i : Fin 40, s.bitcnt.toNat ≤ i.val → s.bitbuf[i] = 0
  /-- I-11, while BUSY. -/
  bits_binary : s.busy = true → ∀ i : Fin 40, s.bitbuf[i] = 0 ∨ s.bitbuf[i] = 1
  /-- I-13, no fault. -/
  no_fault : s.fltV = false → s.fltKind = .none ∧ s.fltSub = 0 ∧ s.fltClass = .sensor ∧ s.hwerr = 0
  /-- I-13, the device code. -/
  hwerr_kind : s.hwerr ≠ 0 → s.fltV = true ∧ s.fltKind = .hardware
  /-- R69, R150: what is recorded is one of the six faults. -/
  recorded : s.fltV = true → sixFaults s.fltKind s.fltSub s.fltClass

/-- The number of units (the smallest positive value of the format) a finite pattern denotes, with its sign. -/
def floatUnits (f : FloatFmt) (x : BitVec 64) : Int :=
  if signBit f x then -(magnitude f x : Int) else magnitude f x

/-- `x` is the value of the format nearest to `num / den` units, and of two equally near the even one (R121). -/
def NearestEven (f : FloatFmt) (x : BitVec 64) (num : Int) (den : Nat) : Prop :=
  ∀ y : BitVec 64, isFinite f y = true →
    (floatUnits f x * den - num).natAbs ≤ (floatUnits f y * den - num).natAbs ∧
    ((floatUnits f x * den - num).natAbs = (floatUnits f y * den - num).natAbs →
      floatUnits f y ≠ floatUnits f x → x.getLsbD 0 = false)

/-- `x` is what rounding the exact result `num / den` units gives: finite whenever some finite value is as large, and
where it is finite the nearest (R121). -/
def RoundsExact (f : FloatFmt) (x : BitVec 64) (num : Int) (den : Nat) : Prop :=
  (∀ z : BitVec 64, isFinite f z = true → num.natAbs ≤ (floatUnits f z).natAbs * den → isFinite f x = true) ∧
  (isFinite f x = true → NearestEven f x num den)

/-- The fault record, whole (R21): FLT_V, FLT_KIND, FLT_SUB, FLT_CLASS, HWERR. -/
def State.record (s : State) : Bool × FaultKind × BitVec 2 × FaultClass × Word :=
  (s.fltV, s.fltKind, s.fltSub, s.fltClass, s.hwerr)

/-- How many edges the read in flight has consumed (R91). -/
def edgesConsumed (s : State) : Nat :=
  match s.fsm with
  | .collectingBits => 1 + 2 * s.bitcnt.toNat + s.phase.code.toNat
  | .idle => 0
  | .startPulseSent => 0
  | .awaitingAck => 0
  | .complete => 0
  | .faulted => 0

/-- A sequence of commands and events, one after the other (R49: the fold of the step function). -/
def execAll (is : List Instr) (s : State) : Host.Outcome State Fault Refusal :=
  match is with
  | [] => .next s
  | i :: is => andThen (exec i s) (execAll is)

end Sys2Proof.Machine
end

