-- ==== Sys2Proof/Certificates/Slice0/Obligations.lean ====
section
/-! DEFINITION. The statements about the model. Each says what a numbered rule of spec/ says, in the rule's own arithmetic
where that can be had (natural numbers, masks) and not in the model's helper functions. -/

open Sys2Proof Sys2Proof.Machine

/-! ## Encodings -/

/-- R63 to R66: no operand bit is lost between an instruction and its word. -/
def Obligations.DecodeEncodeRoundTrip : Prop :=
  ∀ i : Instr, decodeWord (encodeWord i) = .ok i

/-- R70 (c), (d): the ignored bits, and only they, may differ between a word and the encoding of what it decodes to. -/
def Obligations.DecodedWordReencodesCanonically : Prop :=
  ∀ p : PortWord, decodeWord p.canonical = decodeWord p ∧
    ∀ i, decodeWord p = .ok i → encodeWord i = p.canonical

/-- R63, R64: a command word is matched under the mask 0xFFFF00FF, ARG is bits 15:8, and every other word is refused. -/
def Obligations.CommandWordsDecodeByMask : Prop :=
  ∀ w : Word,
    (w &&& 0xFFFF00FF = 0x00000000 → decodeWord (.cmd w) = .ok .nop) ∧
    (w &&& 0xFFFF00FF = 0x00000001 → decodeWord (.cmd w) = .ok .read) ∧
    (w &&& 0xFFFF00FF = 0x00000002 → decodeWord (.cmd w) = .ok .readEnv) ∧
    (w &&& 0xFFFF00FF = 0x00000003 → decodeWord (.cmd w) = .ok .clear) ∧
    (w &&& 0xFFFF00FF = 0x00000004 → decodeWord (.cmd w) = .ok (.pushBit (BitVec.ofNat 8 (w.toNat / 256)))) ∧
    (w &&& 0xFFFF00FF = 0x00000005 → decodeWord (.cmd w) = .ok .pack) ∧
    (w &&& 0xFFFF00FF = 0x00000006 → decodeWord (.cmd w) = .ok .validate) ∧
    (w &&& 0xFFFF00FF = 0x00000007 → decodeWord (.cmd w) = .ok .assemble) ∧
    (w &&& 0xFFFF00FF = 0x00000008 → decodeWord (.cmd w) = .ok .decode) ∧
    (w &&& 0xFFFF00FF = 0x00000009 → decodeWord (.cmd w) = .ok .altScale) ∧
    (9 < (w &&& 0xFFFF00FF).toNat →
      (∃ r, decodeWord (.cmd w) = .error r) ∧ ∀ s : State, hostWrite 0 w s = .next { s with rej := true })

/-- R65: KIND is the word modulo 4, DIR its bit 2, TS and CODE start at bit 4; a word of KIND 3 is dropped. -/
def Obligations.LineWordsDecodeByKind : Prop :=
  ∀ e : LineWord,
    (e.toNat % 4 = 0 → ∃ dir ts, decodeWord (.line e) = .ok (.edge dir ts) ∧ ts.toNat = e.toNat / 16 ∧
      (dir = .rising ↔ e.toNat / 4 % 2 = 1)) ∧
    (e.toNat % 4 = 1 → decodeWord (.line e) = .ok .endOfStream) ∧
    (e.toNat % 4 = 2 → ∃ code, decodeWord (.line e) = .ok (.lineError code) ∧
      code.toNat = e.toNat / 16 % 2 ^ 32) ∧
    (e.toNat % 4 = 3 → ∀ s : State, presentLine (some e) s = .next s)

/-- R66, R73: words written out from the spec's own examples decode to what they stand for. -/
def Obligations.PrintedWordsDecode : Prop :=
  decodeWord (.cmd 0x00000000) = .ok .nop ∧
  decodeWord (.cmd 0x00000002) = .ok .readEnv ∧
  decodeWord (.cmd 0x00000104) = .ok (.pushBit 1) ∧
  decodeWord (.cmd 0x00000009) = .ok .altScale ∧
  decodeWord (.cmd 0x0000000A) = .error .reservedOp ∧
  decodeWord (.cmd 0x00000011) = .error .reservedBits ∧
  decodeWord (.cmd 0x00010001) = .error .reservedBits ∧
  decodeWord (.line 0x00000000000003E80) = .ok (.edge .falling 1000) ∧
  decodeWord (.line 0x00000000000003E84) = .ok (.edge .rising 1000) ∧
  decodeWord (.line 0x00000000000000132) = .ok (.lineError 0x13) ∧
  decodeWord (.line 0x00000000000000001) = .ok .endOfStream ∧
  decodeWord (.timer 0) = .ok .holdDone ∧
  decodeWord (.timer 1) = .ok .deadline

/-- R70 (a), (b): the decoder rejects exactly the reserved encodings. -/
def Obligations.DecoderRejectsExactlyReservedWords : Prop :=
  ∀ p : PortWord, p.wellFormed = true ↔ ∃ i, decodeWord p = .ok i

/-! ## The step -/

/-- A step runs the decoded instruction: when the only thing presented is one port word that decodes to `i`, the step is
the meaning of `i` on the state with that input taken off the list and NOW set to its NOW (R161). -/
def Obligations.StepRunsTheDecodedWord : Prop :=
  ∀ (s : State) (now : Nanos) (rest : List StepInput) (i : Instr),
    (∀ w : Word, decodeWord (.cmd w) = .ok i →
      step { s with inputs := ⟨now, false, .untimed false false, none, some (0, w), none⟩ :: rest } =
        exec i { s with inputs := rest, now := now }) ∧
    (∀ e : LineWord, decodeWord (.line e) = .ok i →
      step { s with inputs := ⟨now, false, .untimed false false, some e, none, none⟩ :: rest } =
        exec i { s with inputs := rest, now := now }) ∧
    (∀ c : BitVec 1, decodeWord (.timer c) = .ok i →
      step { s with inputs := ⟨now, false, .untimed (c == 1) (c == 0), none, none, none⟩ :: rest } =
        exec i { s with inputs := rest, now := now })

/-- R161: reset first and alone; else DEADLINE, line event, HOLD_DONE, host write, each on the state the one before
left; both timers judged, and the host read answered, on the state before the step. -/
def Obligations.StepProcessesInputsInOrder : Prop :=
  ∀ (s : State) (inp : StepInput) (rest : List StepInput), s.inputs = inp :: rest →
    ∃ r : State,
      r = { s with
        inputs := rest
        now := inp.now
        readData := match inp.hostRead with
          | none => s.readData
          | some n => some (hostRead n s) } ∧
      (inp.reset = true → ∃ v, step s = .next
        { State.resetWith s.params with inputs := rest, now := inp.now, readData := v }) ∧
      (inp.reset = false → ∃ s1 s2 s3 : State,
        (deadlinePresent inp s = true → exec .deadline r = .next s1) ∧
        (deadlinePresent inp s = false → s1 = r) ∧
        (inp.lineEvent = none → s2 = s1) ∧
        (∀ e, inp.lineEvent = some e →
          (∀ i, decodeWord (.line e) = .ok i → exec i s1 = .next s2) ∧
          (∀ x, decodeWord (.line e) = .error x → s2 = s1)) ∧
        (holdPresent inp s = true → exec .holdDone s2 = .next s3) ∧
        (holdPresent inp s = false → s3 = s2) ∧
        (inp.hostWrite = none → step s = .next s3) ∧
        (∀ n v, inp.hostWrite = some (n, v) → step s = hostWrite n v s3))

/-- R7, and log entry 1 (the model's choice): with nothing presented the block does not move. -/
def Obligations.NoInputNoChange : Prop :=
  ∀ s : State, s.inputs = [] → step s = .next s

/-- R90: the step function is total; no input stops the machine. -/
def Obligations.StepNeverStops : Prop :=
  ∀ s : State, ∃ t, step s = .next t

/-- R42, R135: a host write reaches CMD or DEADLINE and nothing else; DEADLINE is refused while BUSY. -/
def Obligations.HostWriteReachesCmdAndDeadline : Prop :=
  ∀ (s : State) (v : Word),
    (∀ i, decodeWord (.cmd v) = .ok i → hostWrite 0 v s = exec i s) ∧
    (∀ x, decodeWord (.cmd v) = .error x → hostWrite 0 v s = .next { s with rej := true }) ∧
    (s.busy = true → hostWrite 4 v s = .next { s with rej := true }) ∧
    (s.busy = false → hostWrite 4 v s = .next { s with deadline := v, rej := false }) ∧
    (∀ n, n ≠ 0 → n ≠ 4 → hostWrite n v s = .next s)

/-- R41: a host read changes no state, whatever else the step does, and returns the value of the state before it. -/
def Obligations.HostReadHasNoSideEffect : Prop :=
  ∀ (s : State) (inp : StepInput) (rest : List StepInput) (n : Nat),
    (∃ t : State, step { s with inputs := { inp with hostRead := none } :: rest } = .next t ∧
      step { s with inputs := { inp with hostRead := some n } :: rest } =
        .next { t with readData := some (hostRead n s) }) ∧
    (n = 0 ∨ 26 ≤ n → hostRead n s = 0)

/-! ## Register views and pins -/

/-- R25 with the codes of R67 and R68. -/
def Obligations.StatusRegisterLayout : Prop :=
  ∀ s : State, ∃ x : Word, hostRead 1 s = x ∧
    x.extractLsb' 0 3 = (match s.fsm with
      | .idle => 0 | .startPulseSent => 1 | .awaitingAck => 2 | .collectingBits => 3 | .complete => 4 | .faulted => 5) ∧
    (x.getLsbD 3 = true ↔ s.fsm = .startPulseSent ∨ s.fsm = .awaitingAck ∨ s.fsm = .collectingBits) ∧
    (x.getLsbD 4 = true ↔ s.fsm = .complete ∨ s.fsm = .faulted) ∧
    x.getLsbD 5 = s.rdy ∧ x.getLsbD 6 = s.altV ∧ x.getLsbD 7 = s.fltV ∧
    x.extractLsb' 8 8 = s.bitcnt ∧
    x.extractLsb' 16 2 = (match s.line with | .unclaimed => 0 | .outLow => 1 | .edgeIn => 2) ∧
    (x.getLsbD 18 = true ↔ s.phase = .B) ∧
    x.getLsbD 19 = s.frameV ∧ x.getLsbD 20 = s.chkV ∧ x.getLsbD 21 = s.rej ∧
    (x.getLsbD 22 = true ↔ s.opsel = .readEnv) ∧
    x.extractLsb' 23 9 = 0

/-- R26 with the codes of R69: what FAULT and HWERR read for each of the six faults, and 0 for none. -/
def Obligations.FaultRegisterReadsTheSixFaults : Prop :=
  ∀ s : State, hostRead 3 s = s.hwerr ∧
    (s.fltV = false → hostRead 2 s = 0) ∧
    (s.fltV = true → s.fltKind = .hardware → s.fltSub = 0 → s.fltClass = .sensor → hostRead 2 s = 0x001) ∧
    (s.fltV = true → s.fltKind = .protocol → s.fltSub = 0 → s.fltClass = .sensor → hostRead 2 s = 0x002) ∧
    (s.fltV = true → s.fltKind = .protocol → s.fltSub = 1 → s.fltClass = .sensor → hostRead 2 s = 0x012) ∧
    (s.fltV = true → s.fltKind = .timeout → s.fltSub = 0 → s.fltClass = .sensor → hostRead 2 s = 0x003) ∧
    (s.fltV = true → s.fltKind = .decode → s.fltSub = 0 → s.fltClass = .conversion → hostRead 2 s = 0x104) ∧
    (s.fltV = true → s.fltKind = .decode → s.fltSub = 1 → s.fltClass = .conversion → hostRead 2 s = 0x114)

/-- R27, R43: the data registers, the earlier byte in the more significant place, and the two words of each float. -/
def Obligations.DataRegisterViews : Prop :=
  ∀ s : State,
    hostRead 4 s = s.deadline ∧
    (hostRead 5 s).toNat =
      s.frame[0].toNat * 2 ^ 24 + s.frame[1].toNat * 2 ^ 16 + s.frame[2].toNat * 2 ^ 8 + s.frame[3].toNat ∧
    (hostRead 6 s).toNat = s.frame[4].toNat ∧
    (hostRead 7 s).toNat = s.humRaw.toNat * 2 ^ 16 + s.tempRaw.toNat ∧
    (∀ n x, (n, x) ∈ [(8, s.humF), (10, s.tempF), (12, s.altHumF), (14, s.altTempF)] →
      (hostRead n s).toNat = x.toNat % 2 ^ 32 ∧
      (s.params.floatFmt = .binary32 → hostRead (n + 1) s = 0) ∧
      (s.params.floatFmt = .binary64 → (hostRead (n + 1) s).toNat = x.toNat / 2 ^ 32)) ∧
    (∀ k : Fin 10, ∀ a b c d : Fin 40,
      a.val = 4 * k.val → b.val = 4 * k.val + 1 → c.val = 4 * k.val + 2 → d.val = 4 * k.val + 3 →
      (hostRead (16 + k.val) s).toNat =
        s.bitbuf[a].toNat * 2 ^ 24 + s.bitbuf[b].toNat * 2 ^ 16 + s.bitbuf[c].toNat * 2 ^ 8 + s.bitbuf[d].toNat)

/-- R170, R171: every pin is a function of the state, and the line is never driven high. -/
def Obligations.PinsFollowTheState : Prop :=
  ∀ s : State,
    (lineOe s = true ↔ s.line = .outLow) ∧ lineOut s = false ∧
    (edgeEn s = true ↔ s.fsm = .awaitingAck ∨ s.fsm = .collectingBits) ∧
    (busyOut s = true ↔ s.fsm = .startPulseSent ∨ s.fsm = .awaitingAck ∨ s.fsm = .collectingBits) ∧
    (doneOut s = true ↔ s.fsm = .complete ∨ s.fsm = .faulted) ∧
    irqOut s = doneOut s

/-! ## Timers -/

/-- R166, R167: both timers compare the time since START, modulo 2^64, with their limit. -/
def Obligations.TimersFireByElapsedTime : Prop :=
  ∀ (s : State) (inp : StepInput), inp.timers = .timed →
    (holdPresent inp s = true ↔ s.fsm = .startPulseSent ∧
      s.params.tHoldNs.toNat ≤ (inp.now.toNat + (2 ^ 64 - s.t0.toNat)) % 2 ^ 64) ∧
    (deadlinePresent inp s = true ↔
      (s.fsm = .startPulseSent ∨ s.fsm = .awaitingAck ∨ s.fsm = .collectingBits) ∧
      s.deadline.toNat ≤ (inp.now.toNat + (2 ^ 64 - s.t0.toNat)) % 2 ^ 64)

/-- R168: a step of the timed view is the step of the untimed view whose timer events are the ones R166 and R167
generate. -/
def Obligations.TimedViewIsAnUntimedView : Prop :=
  ∀ (s : State) (inp : StepInput) (rest : List StepInput) (elapsed : Nat),
    elapsed = (inp.now.toNat + (2 ^ 64 - s.t0.toNat)) % 2 ^ 64 →
    step { s with inputs := { inp with timers := .timed } :: rest } =
    step { s with
      inputs :=
        { inp with
          timers := TimerView.untimed (s.busy && decide (s.deadline.toNat ≤ elapsed))
            (decide (s.fsm = .startPulseSent) && decide (s.params.tHoldNs.toNat ≤ elapsed)) } :: rest }

/-- R94, R154, R167: in the timed view a read in flight ends, with a Timeout fault, in the first step whose NOW is the
deadline or more past START, whatever line event arrives in that step; what was captured stays. -/
def Obligations.ReadEndsByTheDeadline : Prop :=
  ∀ (s : State) (inp : StepInput) (rest : List StepInput),
    s.inputs = inp :: rest → inp.timers = .timed → inp.reset = false → inp.hostWrite = none → s.busy = true →
    s.deadline.toNat ≤ (inp.now.toNat + (2 ^ 64 - s.t0.toNat)) % 2 ^ 64 →
    ∃ t : State, step s = .next t ∧
      t = { s with
        fsm := .faulted
        fltV := true
        fltKind := .timeout
        fltSub := 0
        fltClass := .sensor
        hwerr := 0
        line := if s.fsm = .startPulseSent then .unclaimed else s.line
        inputs := rest
        now := inp.now
        readData := t.readData }

/-! ## The Protocol Driver -/

/-- R80: READ's word, its refusal while BUSY, and on acceptance every result discarded, NOW recorded and the line
claimed low; everything else stays. -/
def Obligations.ReadStartsARead : Prop :=
  decodeWord (.cmd 0x00000001) = .ok .read ∧
  ∀ s : State,
    (s.busy = true → exec .read s = .next { s with rej := true }) ∧
    (s.busy = false → exec .read s = .next
      { s with
        bitbuf := Vector.replicate 40 0, bitcnt := 0, phase := .A, tsA := 0
        frame := Vector.replicate 5 0, frameV := false, chkV := false, rdy := false, altV := false
        humRaw := 0, tempRaw := 0, humF := 0, tempF := 0, altHumF := 0, altTempF := 0
        fltV := false, fltKind := .none, fltSub := 0, fltClass := .sensor, hwerr := 0
        opsel := .read, t0 := s.now, line := .outLow, fsm := .startPulseSent, rej := false })

/-- R131: READENV is START(1): READ in everything but OPSEL. -/
def Obligations.ReadEnvStartsARead : Prop :=
  decodeWord (.cmd 0x00000002) = .ok .readEnv ∧
  ∀ s : State,
    (s.busy = true → exec .readEnv s = .next { s with rej := true }) ∧
    (s.busy = false → ∃ t : State,
      exec .read s = .next t ∧ exec .readEnv s = .next { t with opsel := .readEnv } ∧ t.fsm = .startPulseSent)

/-- R81: HOLD_DONE releases the line and opens the stream in one action; elsewhere it is dropped. -/
def Obligations.HoldDoneOpensTheStream : Prop :=
  ∀ s : State,
    (s.fsm = .startPulseSent → exec .holdDone s = .next { s with line := .edgeIn, fsm := .awaitingAck }) ∧
    (s.fsm ≠ .startPulseSent → exec .holdDone s = .next s)

/-- R82, R90, R159: an event nobody awaits changes nothing at all. -/
def Obligations.UnawaitedEventsAreDropped : Prop :=
  ∀ (s : State) (dir : EdgeDir) (ts : Nanos) (code : Word),
    (s.fsm ≠ .awaitingAck → s.fsm ≠ .collectingBits →
      exec (.edge dir ts) s = .next s ∧ exec .endOfStream s = .next s) ∧
    (s.busy = false →
      exec (.lineError code) s = .next s ∧ exec .deadline s = .next s ∧ exec .holdDone s = .next s)

/-- R83: the first edge is checked for its direction only. -/
def Obligations.AcknowledgmentMustBeFalling : Prop :=
  ∀ (s : State) (ts : Nanos), s.fsm = .awaitingAck →
    exec (.edge .falling ts) s = .next { s with fsm := .collectingBits } ∧
    exec (.edge .rising ts) s = .next
      { s with
        fsm := .faulted, fltV := true, fltKind := .protocol, fltSub := 1, fltClass := .sensor, hwerr := 0 }

/-- R84, R92: the first edge of a pair is stamped, the second makes the bit BITCNT; the direction plays no part. The
completing pair is `FortiethBitCompletesTheRead`. -/
def Obligations.PairOfEdgesBecomesOneBit : Prop :=
  ∀ (s : State) (dir : EdgeDir) (ts : Nanos), s.fsm = .collectingBits →
    (s.phase = .A → exec (.edge dir ts) s = .next { s with tsA := ts, phase := .B }) ∧
    (s.phase = .B → s.bitcnt.toNat < 39 → ∃ t : State, exec (.edge dir ts) s = .next t ∧
      t = { s with bitcnt := t.bitcnt, phase := .A, bitbuf := t.bitbuf } ∧
      t.bitcnt.toNat = s.bitcnt.toNat + 1 ∧
      ∀ k : Fin 40, t.bitbuf[k] =
        if k.val = s.bitcnt.toNat then
          (if (ts.toNat + (2 ^ 64 - s.tsA.toNat)) % 2 ^ 64 < 40000 then 0 else 1)
        else s.bitbuf[k])

/-- R85: the 40th bit ends the read in the same step: READ in Complete with the bits alone, READENV in what DECODE makes
of the 40 bits (run as the host command is run, on the state with the 40th bit stored), Complete if RDY, else
Faulted; REJ is not an event's to write. -/
def Obligations.FortiethBitCompletesTheRead : Prop :=
  ∀ (s : State) (dir : EdgeDir) (ts : Nanos),
    s.fsm = .collectingBits → s.phase = .B → s.bitcnt = 39 →
    ∃ c : State,
      c = { s with bitcnt := 40, phase := .A, bitbuf := c.bitbuf } ∧
      (∀ k : Fin 40, c.bitbuf[k] =
        if k.val = 39 then (if (ts.toNat + (2 ^ 64 - s.tsA.toNat)) % 2 ^ 64 < 40000 then 0 else 1)
        else s.bitbuf[k]) ∧
      (s.opsel = .read → exec (.edge dir ts) s = .next { c with fsm := .complete }) ∧
      (s.opsel = .readEnv → ∃ d : State, exec .decode { c with fsm := .idle } = .next d ∧
        exec (.edge dir ts) s =
          .next { d with fsm := if d.rdy = true then .complete else .faulted, rej := s.rej })

/-- R86, R188: BITOF is the threshold 40,000 ns on the interval modulo 2^64, the boundary yielding 1. -/
def Obligations.BitOfIsTheThreshold : Prop :=
  ∀ a b : Nanos,
    ((b.toNat + (2 ^ 64 - a.toNat)) % 2 ^ 64 < 40000 → bitOf a b = 0) ∧
    (40000 ≤ (b.toNat + (2 ^ 64 - a.toNat)) % 2 ^ 64 → bitOf a b = 1)

/-- R87: END while an edge is awaited is BadRead; everything captured stays; elsewhere it is dropped. -/
def Obligations.EndOfStreamIsBadRead : Prop :=
  ∀ s : State,
    (s.fsm = .awaitingAck ∨ s.fsm = .collectingBits → exec .endOfStream s = .next
      { s with
        fsm := .faulted, fltV := true, fltKind := .protocol, fltSub := 0, fltClass := .sensor, hwerr := 0 }) ∧
    (¬(s.fsm = .awaitingAck ∨ s.fsm = .collectingBits) → exec .endOfStream s = .next s)

/-- R88: ERROR while BUSY is a Hardware fault with the code verbatim; from the start pulse the line is released. -/
def Obligations.LineErrorIsAHardwareFault : Prop :=
  ∀ (s : State) (code : Word),
    (s.fsm = .startPulseSent → exec (.lineError code) s = .next
      { s with
        fsm := .faulted, fltV := true, fltKind := .hardware, fltSub := 0, fltClass := .sensor, hwerr := code
        line := .unclaimed }) ∧
    (s.fsm = .awaitingAck ∨ s.fsm = .collectingBits → exec (.lineError code) s = .next
      { s with
        fsm := .faulted, fltV := true, fltKind := .hardware, fltSub := 0, fltClass := .sensor, hwerr := code }) ∧
    (s.busy = false → exec (.lineError code) s = .next s)

/-- R89: DEADLINE while BUSY is a Timeout fault; nothing captured is cleaned up; from the start pulse the line is
released. -/
def Obligations.DeadlineIsATimeoutFault : Prop :=
  ∀ s : State,
    (s.fsm = .startPulseSent → exec .deadline s = .next
      { s with
        fsm := .faulted, fltV := true, fltKind := .timeout, fltSub := 0, fltClass := .sensor, hwerr := 0
        line := .unclaimed }) ∧
    (s.fsm = .awaitingAck ∨ s.fsm = .collectingBits → exec .deadline s = .next
      { s with
        fsm := .faulted, fltV := true, fltKind := .timeout, fltSub := 0, fltClass := .sensor, hwerr := 0 }) ∧
    (s.busy = false → exec .deadline s = .next s)

/-- R91, R84: after the acknowledgment, `n` edges of any directions, `n` at most 79, leave the read in flight with
`n / 2` bits captured, each BITOF of its pair, so that `n + 1` edges have been consumed. -/
def Obligations.EdgesAreConsumedInPairs : Prop :=
  ∀ (s : State) (a : Nanos) (es : List (EdgeDir × Nanos)),
    s.fsm = .awaitingAck → s.bitcnt = 0 → s.phase = .A → es.length ≤ 79 →
    ∃ t : State,
      execAll (.edge .falling a :: es.map fun e => .edge e.1 e.2) s = .next t ∧
      t.fsm = .collectingBits ∧ t.bitcnt.toNat = es.length / 2 ∧ t.phase.code.toNat = es.length % 2 ∧
      edgesConsumed t = 1 + es.length ∧
      (∀ k : Fin 40, ∀ x y, es[2 * k.val]? = some x → es[2 * k.val + 1]? = some y →
        t.bitbuf[k] = bitOf x.2 y.2) ∧
      (∀ k : Fin 40, es.length / 2 ≤ k.val → t.bitbuf[k] = s.bitbuf[k]) ∧
      t = { s with
        fsm := .collectingBits, bitcnt := t.bitcnt, phase := t.phase, tsA := t.tsA, bitbuf := t.bitbuf }

/-- R91, R85: a READ completes with exactly the 81st edge: the acknowledgment and 40 pairs, of any directions, give
Complete and the 40 bits of the 40 intervals, and change nothing else. -/
def Obligations.EightyOneEdgesCompleteARead : Prop :=
  ∀ (s : State) (a : Nanos) (es : List (EdgeDir × Nanos)),
    s.fsm = .awaitingAck → s.bitcnt = 0 → s.phase = .A → s.opsel = .read → es.length = 80 →
    ∃ t : State,
      execAll (.edge .falling a :: es.map fun e => .edge e.1 e.2) s = .next t ∧
      (∀ k : Fin 40, ∀ x y, es[2 * k.val]? = some x → es[2 * k.val + 1]? = some y →
        t.bitbuf[k] = if (y.2.toNat + (2 ^ 64 - x.2.toNat)) % 2 ^ 64 < 40000 then 0 else 1) ∧
      t = { s with fsm := .complete, bitcnt := 40, phase := .A, tsA := t.tsA, bitbuf := t.bitbuf }

/-- R131, R61, R62: what READENV makes of the pulses on the wire, end to end. From any state in which it is accepted,
READENV, the hold, a falling edge and 80 edges whose 40 intervals spell the five bytes `fr` under the threshold leave
exactly that frame; with a matching checksum the read is Complete with both raw values and no fault, with any other
it is Faulted with BadChecksum and no Reading. -/
def Obligations.ReadEnvDecodesTheFrameOnTheWire : Prop :=
  ∀ (s : State) (a : Nanos) (es : List (EdgeDir × Nanos)) (fr : Vector Byte 5) (sum : Nat),
    s.busy = false → es.length = 80 →
    (∀ (g : Fin 5) (j : Fin 8) (k : Nat) (x y : EdgeDir × Nanos), k = 8 * g.val + j.val →
      es[2 * k]? = some x → es[2 * k + 1]? = some y →
      ((y.2.toNat + (2 ^ 64 - x.2.toNat)) % 2 ^ 64 < 40000 ↔ (fr[g]).getLsbD (7 - j.val) = false)) →
    sum = fr[0].toNat + fr[1].toNat + fr[2].toNat + fr[3].toNat →
    ∃ t : State,
      execAll (.readEnv :: .holdDone :: .edge .falling a :: es.map fun e => .edge e.1 e.2) s = .next t ∧
      t.frame = fr ∧ t.bitcnt = 40 ∧ t.line = .edgeIn ∧
      (sum % 256 = fr[4].toNat → t.fsm = .complete ∧ t.rdy = true ∧ t.fltV = false ∧
        t.humRaw.toNat = fr[0].toNat * 256 + fr[1].toNat ∧ t.tempRaw.toNat = fr[2].toNat * 256 + fr[3].toNat) ∧
      (sum % 256 ≠ fr[4].toNat → t.fsm = .faulted ∧ t.rdy = false ∧ t.fltV = true ∧ t.fltKind = .decode ∧
        t.fltSub = 1 ∧ t.fltClass = .conversion ∧ t.humRaw = 0 ∧ t.tempRaw = 0)

/-- R28 I-12, R85: no step enters Complete but one that presents an edge while the second edge of the 40th pair is
awaited. -/
def Obligations.CompleteOnlyByTheFortiethBit : Prop :=
  ∀ (s t : State), step s = .next t → s.fsm ≠ .complete → t.fsm = .complete →
    s.fsm = .collectingBits ∧ s.phase = .B ∧ s.bitcnt = 39 ∧
    ∃ inp rest e dir ts, s.inputs = inp :: rest ∧ inp.lineEvent = some e ∧ decodeWord (.line e) = .ok (.edge dir ts)

/-- R11: StartPulseSent is entered only by a START that is accepted, Idle only by CLEAR (or reset), and a terminal state
is left only by those. -/
def Obligations.OnlyStartAndClearLeaveATerminalState : Prop :=
  ∀ (i : Instr) (s t : State), exec i s = .next t →
    (t.fsm = .startPulseSent → s.fsm ≠ .startPulseSent → (i = .read ∨ i = .readEnv) ∧ s.busy = false) ∧
    (t.fsm = .idle → s.fsm ≠ .idle → i = .clear ∧ s.busy = false) ∧
    (s.done = true → t.done = false → i = .read ∨ i = .readEnv ∨ i = .clear)

/-! ## The Bit Framer -/

/-- R111: PACK tests the length first; on 40 it packs, on any other it records UnexpectedInput and packs nothing. -/
def Obligations.PackChecksTheLength : Prop :=
  decodeWord (.cmd 0x00000005) = .ok .pack ∧
  ∀ s : State,
    (s.busy = true → exec .pack s = .next { s with rej := true }) ∧
    (s.busy = false → s.bitcnt ≠ 40 → exec .pack s = .next
      { s with
        chkV := false, rdy := false, altV := false, frameV := false
        fltV := true, fltKind := .decode, fltSub := 0, fltClass := .conversion, hwerr := 0, rej := false }) ∧
    (s.busy = false → s.bitcnt = 40 → ∃ t : State, exec .pack s = .next t ∧
      t = { s with
        chkV := false, rdy := false, altV := false, frameV := true, frame := t.frame, rej := false } ∧
      ∀ g : Fin 5, t.frame[g] = packByte s.bitbuf g.val)

/-- R112: a group of eight elements packs to the number its binary elements spell, most significant first; any other
element is skipped. -/
def Obligations.PackByteSkipsNonBinaryElements : Prop :=
  ∀ (buf : Vector Byte 40) (g : Fin 5),
    (packByte buf g.val).toNat =
      (((buf.toList.drop (8 * g.val)).take 8).filter fun v => v == 0 || v == 1).foldl
        (fun acc v => 2 * acc + v.toNat) 0

/-- R46, R112: with binary elements, bit 7 - j of FRAME[g] is element 8g + j. -/
def Obligations.PackIsMostSignificantBitFirst : Prop :=
  ∀ (buf : Vector Byte 40), (∀ k : Fin 40, buf[k] = 0 ∨ buf[k] = 1) →
    ∀ (g : Fin 5) (j : Fin 8) (k : Fin 40), k.val = 8 * g.val + j.val →
      (((packFrame buf)[g]).getLsbD (7 - j.val) = true ↔ buf[k] = 1)

/-- R62, R46: every five bytes are the frame of exactly the 40 elements that spell them, bit by bit. -/
def Obligations.EveryFrameHasItsBits : Prop :=
  ∀ (fr : Vector Byte 5) (buf : Vector Byte 40),
    (∀ (g : Fin 5) (j : Fin 8) (k : Fin 40), k.val = 8 * g.val + j.val →
      buf[k] = if (fr[g]).getLsbD (7 - j.val) then 1 else 0) →
    packFrame buf = fr

/-- R113: VALIDATE needs FRAME_V; it compares the sum modulo 256 of four bytes with the fifth. -/
def Obligations.ValidateComparesTheChecksum : Prop :=
  decodeWord (.cmd 0x00000006) = .ok .validate ∧
  ∀ (s : State) (sum : Nat),
    sum = s.frame[0].toNat + s.frame[1].toNat + s.frame[2].toNat + s.frame[3].toNat →
    (s.busy = true ∨ s.frameV = false → exec .validate s = .next { s with rej := true }) ∧
    (s.busy = false → s.frameV = true → sum % 256 = s.frame[4].toNat →
      exec .validate s = .next { s with rdy := false, altV := false, chkV := true, rej := false }) ∧
    (s.busy = false → s.frameV = true → sum % 256 ≠ s.frame[4].toNat →
      exec .validate s = .next
        { s with
          rdy := false, altV := false, chkV := false
          fltV := true, fltKind := .decode, fltSub := 1, fltClass := .conversion, hwerr := 0, rej := false })

/-- R114, R47: ASSEMBLE needs CHK_V; both raw values are big-endian and unsigned, both readings are raw / 10.0. -/
def Obligations.AssembleBuildsTheReading : Prop :=
  decodeWord (.cmd 0x00000007) = .ok .assemble ∧
  ∀ s : State,
    (s.busy = true ∨ s.chkV = false → exec .assemble s = .next { s with rej := true }) ∧
    (s.busy = false → s.chkV = true → ∃ t : State, exec .assemble s = .next t ∧
      t.humRaw.toNat = s.frame[0].toNat * 256 + s.frame[1].toNat ∧
      t.tempRaw.toNat = s.frame[2].toNat * 256 + s.frame[3].toNat ∧
      t = { s with
        humRaw := t.humRaw
        tempRaw := t.tempRaw
        humF := fdiv s.params.floatFmt (u16ToF s.params.floatFmt t.humRaw) (fconst s.params.floatFmt 10 1)
        tempF := fdiv s.params.floatFmt (u16ToF s.params.floatFmt t.tempRaw) (fconst s.params.floatFmt 10 1)
        rdy := true
        altV := false
        rej := false })

/-- R115, R162: DECODE is PACK, then VALIDATE if a frame was packed, then ASSEMBLE if it was valid; the first stage that
fails stops it. -/
def Obligations.DecodeIsTheThreeStages : Prop :=
  decodeWord (.cmd 0x00000008) = .ok .decode ∧
  ∀ s : State,
    (s.busy = true → exec .decode s = .next { s with rej := true }) ∧
    (s.busy = false → ∃ p : State, exec .pack s = .next p ∧
      (p.frameV = false → exec .decode s = .next p) ∧
      (p.frameV = true → ∃ v : State, exec .validate p = .next v ∧
        (v.chkV = false → exec .decode s = .next v) ∧
        (v.chkV = true → ∃ a : State, exec .assemble v = .next a ∧ exec .decode s = .next a ∧ a.rdy = true)))

/-- R116, R120: ALTSCALE needs RDY; it rounds the product before the sum and never writes the primary Reading. -/
def Obligations.AltScaleIsUnfused : Prop :=
  decodeWord (.cmd 0x00000009) = .ok .altScale ∧
  ∀ s : State,
    (s.busy = true ∨ s.rdy = false → exec .altScale s = .next { s with rej := true }) ∧
    (s.busy = false → s.rdy = true → exec .altScale s = .next
      { s with
        altHumF := s.humF
        altTempF := fadd s.params.floatFmt
          (fmul s.params.floatFmt s.tempF (fconst s.params.floatFmt 18 10)) (fconst s.params.floatFmt 32 1)
        altV := true
        rej := false })

/-- R121, R118: what a float operation rounds, it rounds to a nearest value of the format: no finite pattern lies nearer
to `num / den` units, for every quotient whose rounding is finite; and if a finite pattern of another value lies as near, the
result is the even one of the two. -/
def Obligations.RoundingIsToTheNearestEven : Prop :=
  ∀ (f : FloatFmt) (num den : Nat) (x y : BitVec 64), 0 < den → x = roundFloat f false num den →
    isFinite f x = true → isFinite f y = true →
    (floatUnits f x * (den : Int) - (num : Int)).natAbs ≤ (floatUnits f y * (den : Int) - (num : Int)).natAbs ∧
    ((floatUnits f x * (den : Int) - (num : Int)).natAbs = (floatUnits f y * (den : Int) - (num : Int)).natAbs →
      floatUnits f y ≠ floatUnits f x → x.getLsbD 0 = false)

/-- R121, R118: each float primitive rounds ITS exact result once, for finite operands of either sign: fmul the product,
fadd the sum, fdiv the quotient by a number that is not zero, fconst the decimal; u16_to_f is exact. Operands that are
not negative give a result that is not negative. (On other operands: log entry 4.) -/
def Obligations.FloatOperationsRoundTheExactResult : Prop :=
  ∀ (f : FloatFmt) (a b : BitVec 64), isFinite f a = true → isFinite f b = true →
    RoundsExact f (fmul f a b) (floatUnits f a * floatUnits f b) (unitsPerOne f) ∧
    RoundsExact f (fadd f a b) (floatUnits f a + floatUnits f b) 1 ∧
    (floatUnits f b ≠ 0 →
      RoundsExact f (fdiv f a b) (floatUnits f a * unitsPerOne f * (floatUnits f b).sign) (floatUnits f b).natAbs) ∧
    (signBit f a = false → signBit f b = false →
      signBit f (fmul f a b) = false ∧ signBit f (fadd f a b) = false ∧
      (floatUnits f b ≠ 0 → signBit f (fdiv f a b) = false)) ∧
    (∀ v : BitVec 16, isFinite f (u16ToF f v) = true ∧ signBit f (u16ToF f v) = false ∧
      floatUnits f (u16ToF f v) = v.toNat * unitsPerOne f) ∧
    (∀ num den : Nat, 0 < den →
      RoundsExact f (fconst f num den) (num * unitsPerOne f) den ∧ signBit f (fconst f num den) = false)

/-- R119, R114: the Reading of a raw value is a finite pattern, positive or +0.0 (and +0.0 exactly for 0), nearest to
raw / 10 among all finite patterns. -/
def Obligations.ReadingIsNearestToTheTenth : Prop :=
  ∀ (f : FloatFmt) (raw : BitVec 16) (x : BitVec 64), x = fdiv f (u16ToF f raw) (fconst f 10 1) →
    isFinite f x = true ∧ signBit f x = false ∧ (x = 0 ↔ raw = 0) ∧
    ∀ y : BitVec 64, isFinite f y = true →
      (10 * floatUnits f x - (raw.toNat * unitsPerOne f : Nat)).natAbs ≤
        (10 * floatUnits f y - (raw.toNat * unitsPerOne f : Nat)).natAbs

/-- R120, R119: the constants' patterns in both formats. -/
def Obligations.FloatConstantPatterns : Prop :=
  fconst .binary32 18 10 = 0x3FE66666 ∧ fconst .binary64 18 10 = 0x3FFCCCCCCCCCCCCD ∧
  fconst .binary32 10 1 = 0x41200000 ∧ fconst .binary64 10 1 = 0x4024000000000000 ∧
  fconst .binary32 32 1 = 0x42000000 ∧ fconst .binary64 32 1 = 0x4040000000000000

/-! ## Host commands -/

/-- R132: NOP clears REJ in every state and does nothing else. -/
def Obligations.NopClearsOnlyRej : Prop :=
  decodeWord (.cmd 0x00000000) = .ok .nop ∧ ∀ s : State, exec .nop s = .next { s with rej := false }

/-- R133: CLEAR puts every register but LINE, DEADLINE and T0 at its reset value, whatever the build parameters. -/
def Obligations.ClearIsResetButLineDeadlineT0 : Prop :=
  decodeWord (.cmd 0x00000003) = .ok .clear ∧
  ∀ s : State,
    (s.busy = true → exec .clear s = .next { s with rej := true }) ∧
    (s.busy = false → exec .clear s = .next
      { State.resetWith s.params with
        line := s.line, deadline := s.deadline, t0 := s.t0
        now := s.now, inputs := s.inputs, readData := s.readData })

/-- R134: PUSHBIT stores its element while fewer than 40 have been counted, and counts, saturating at 255. -/
def Obligations.PushBitAppends : Prop :=
  (∀ v : Byte, decodeWord (.cmd (BitVec.ofNat 32 (4 + 256 * v.toNat))) = .ok (.pushBit v)) ∧
  ∀ (s : State) (v : Byte),
    (s.busy = true → exec (.pushBit v) s = .next { s with rej := true }) ∧
    (s.busy = false → ∃ t : State, exec (.pushBit v) s = .next t ∧
      t = { s with bitbuf := t.bitbuf, bitcnt := t.bitcnt, rej := false } ∧
      t.bitcnt.toNat = min (s.bitcnt.toNat + 1) 255 ∧
      ∀ k : Fin 40, t.bitbuf[k] = if k.val = s.bitcnt.toNat then v else s.bitbuf[k])

/-- R130: exactly when a command is refused, for every command word in every state; a refusal changes REJ alone, and every
other command is executed by its rule and clears REJ. -/
def Obligations.CommandAcceptance : Prop :=
  ∀ (s : State) (w : Word),
    (∀ x, decodeWord (.cmd w) = .error x → hostWrite 0 w s = .next { s with rej := true }) ∧
    (∀ i, decodeWord (.cmd w) = .ok i →
      (i ≠ .nop ∧ s.busy = true ∨ i = .validate ∧ s.frameV = false ∨ i = .assemble ∧ s.chkV = false ∨
        i = .altScale ∧ s.rdy = false → hostWrite 0 w s = .next { s with rej := true }) ∧
      (¬(i ≠ .nop ∧ s.busy = true ∨ i = .validate ∧ s.frameV = false ∨ i = .assemble ∧ s.chkV = false ∨
        i = .altScale ∧ s.rdy = false) →
        hostWrite 0 w s = exec i s ∧ ∃ t : State, exec i s = .next t ∧ t.rej = false))

/-- R51, R130, R185: while a read is in flight no host write changes anything but REJ. -/
def Obligations.BusyGuardProtectsTheRead : Prop :=
  ∀ (s : State) (n : Nat) (v : Word), s.busy = true →
    ∃ t : State, hostWrite n v s = .next t ∧ t = { s with rej := t.rej }

/-- R22, R23, R24, R29: no event writes REJ, and no command or event writes DEADLINE, the build parameters, NOW, the
inputs to come or the value of the last host read; T0 is START's alone. -/
def Obligations.ConfigurationIsNotTheirsToWrite : Prop :=
  ∀ (i : Instr) (s t : State), exec i s = .next t →
    t.deadline = s.deadline ∧ t.params = s.params ∧ t.now = s.now ∧ t.inputs = s.inputs ∧
    t.readData = s.readData ∧
    (i ≠ .read → i ≠ .readEnv → t.t0 = s.t0 ∧ t.opsel = (if i = .clear ∧ s.busy = false then .read else s.opsel)) ∧
    (∀ dir ts code, i = .edge dir ts ∨ i = .endOfStream ∨ i = .lineError code ∨ i = .holdDone ∨ i = .deadline →
      t.rej = s.rej)

/-! ## Faults and reset -/

/-- R157: fault entry writes the record and, if the fault ends a read in flight, STATE; nothing else. -/
def Obligations.FaultEntryWritesTheRecord : Prop :=
  ∀ (s : State) (k : FaultKind) (sub : BitVec 2) (c : FaultClass) (code : Word),
    raiseFault k sub c code true s =
      { s with fltV := true, fltKind := k, fltSub := sub, fltClass := c, hwerr := code, fsm := .faulted } ∧
    raiseFault k sub c code false s =
      { s with fltV := true, fltKind := k, fltSub := sub, fltClass := c, hwerr := code }

/-- R160, R150 to R156, R69: what a command or event may do to the fault record, HWERR included. It stays as it was; or an
accepted START or CLEAR clears it whole; or a later fault overwrites it whole, by the one of the six faults whose cause
the instruction is in that state. -/
def Obligations.FaultRecordIsSticky : Prop :=
  ∀ (i : Instr) (s t : State), exec i s = .next t →
    t.record = s.record ∨
    (t.record = (false, .none, 0, .sensor, 0) ∧ (i = .read ∨ i = .readEnv ∨ i = .clear) ∧ s.busy = false) ∨
    (∃ code, t.record = (true, .hardware, 0, .sensor, code) ∧ i = .lineError code ∧ s.busy = true) ∨
    (t.record = (true, .protocol, 0, .sensor, 0) ∧ i = .endOfStream ∧
      (s.fsm = .awaitingAck ∨ s.fsm = .collectingBits)) ∨
    (t.record = (true, .protocol, 1, .sensor, 0) ∧ (∃ ts, i = .edge .rising ts) ∧ s.fsm = .awaitingAck) ∨
    (t.record = (true, .timeout, 0, .sensor, 0) ∧ i = .deadline ∧ s.busy = true) ∨
    (t.record = (true, .decode, 0, .conversion, 0) ∧ (i = .pack ∨ i = .decode) ∧ s.busy = false ∧ s.bitcnt ≠ 40) ∨
    (t.record = (true, .decode, 1, .conversion, 0) ∧
      (t.frame[0].toNat + t.frame[1].toNat + t.frame[2].toNat + t.frame[3].toNat) % 256 ≠ t.frame[4].toNat ∧
      (i = .validate ∧ s.busy = false ∧ s.frameV = true ∨
        i = .decode ∧ s.busy = false ∧ s.bitcnt = 40 ∨
        (∃ dir ts, i = .edge dir ts) ∧ s.fsm = .collectingBits ∧ s.phase = .B ∧ s.bitcnt = 39 ∧
          s.opsel = .readEnv))

/-- R30, R181: the reset values; DEADLINE's is the OPEN parameter. Registers 1 to 25 but 4 read 0, and no pin is up. -/
def Obligations.ResetValues : Prop :=
  ∀ p : Params, ∃ s : State, State.resetWith p = s ∧
    s.fsm = .idle ∧ s.bitcnt = 0 ∧ s.phase = .A ∧ s.tsA = 0 ∧ s.opsel = .read ∧ s.line = .unclaimed ∧
    (∀ k : Fin 40, s.bitbuf[k] = 0) ∧ (∀ g : Fin 5, s.frame[g] = 0) ∧
    s.frameV = false ∧ s.chkV = false ∧ s.rdy = false ∧ s.altV = false ∧
    s.humRaw = 0 ∧ s.tempRaw = 0 ∧ s.humF = 0 ∧ s.tempF = 0 ∧ s.altHumF = 0 ∧ s.altTempF = 0 ∧
    s.fltV = false ∧ s.fltKind = .none ∧ s.fltSub = 0 ∧ s.fltClass = .sensor ∧ s.hwerr = 0 ∧
    s.rej = false ∧ s.deadline = p.deadlineResetNs ∧ s.t0 = 0 ∧
    (∀ n, n ≠ 4 → hostRead n s = 0) ∧
    lineOe s = false ∧ lineOut s = false ∧ edgeEn s = false ∧ busyOut s = false ∧ doneOut s = false ∧ irqOut s = false

/-- R180, R161: RESET in any state gives the reset values, whatever else the step presents; the build parameters and
the inputs to come stay. -/
def Obligations.ResetWinsOverEverything : Prop :=
  ∀ (s : State) (inp : StepInput) (rest : List StepInput), s.inputs = inp :: rest → inp.reset = true →
    ∃ t : State, step s = .next t ∧
      t = { State.resetWith s.params with inputs := rest, now := inp.now, readData := t.readData }

/-! ## The invariants of R28 -/

/-- R28, R30: the reset state, with any build parameters, meets the invariants. -/
def Obligations.ResetMeetsTheInvariants : Prop :=
  (∀ p : Params, BlockInv (State.resetWith p)) ∧ BlockInv State.reset

/-- R28: every step keeps the invariants, from every state that meets them, whatever is presented. -/
def Obligations.EveryStepKeepsTheInvariants : Prop :=
  ∀ s t : State, BlockInv s → step s = .next t → BlockInv t
end

