-- ==== Sys2Proof/Laws/State.lean ====
section
/-! SUPPORT. One lemma per field per shared update, so that no later proof unfolds a record update. -/

namespace Sys2Proof.Machine

/-! ### `refuse` -/
@[simp] theorem refuse_fsm (s : State) : (refuse s).fsm = s.fsm := rfl
@[simp] theorem refuse_bitcnt (s : State) : (refuse s).bitcnt = s.bitcnt := rfl
@[simp] theorem refuse_phase (s : State) : (refuse s).phase = s.phase := rfl
@[simp] theorem refuse_tsA (s : State) : (refuse s).tsA = s.tsA := rfl
@[simp] theorem refuse_opsel (s : State) : (refuse s).opsel = s.opsel := rfl
@[simp] theorem refuse_line (s : State) : (refuse s).line = s.line := rfl
@[simp] theorem refuse_bitbuf (s : State) : (refuse s).bitbuf = s.bitbuf := rfl
@[simp] theorem refuse_frame (s : State) : (refuse s).frame = s.frame := rfl
@[simp] theorem refuse_frameV (s : State) : (refuse s).frameV = s.frameV := rfl
@[simp] theorem refuse_chkV (s : State) : (refuse s).chkV = s.chkV := rfl
@[simp] theorem refuse_rdy (s : State) : (refuse s).rdy = s.rdy := rfl
@[simp] theorem refuse_altV (s : State) : (refuse s).altV = s.altV := rfl
@[simp] theorem refuse_humRaw (s : State) : (refuse s).humRaw = s.humRaw := rfl
@[simp] theorem refuse_tempRaw (s : State) : (refuse s).tempRaw = s.tempRaw := rfl
@[simp] theorem refuse_humF (s : State) : (refuse s).humF = s.humF := rfl
@[simp] theorem refuse_tempF (s : State) : (refuse s).tempF = s.tempF := rfl
@[simp] theorem refuse_altHumF (s : State) : (refuse s).altHumF = s.altHumF := rfl
@[simp] theorem refuse_altTempF (s : State) : (refuse s).altTempF = s.altTempF := rfl
@[simp] theorem refuse_fltV (s : State) : (refuse s).fltV = s.fltV := rfl
@[simp] theorem refuse_fltKind (s : State) : (refuse s).fltKind = s.fltKind := rfl
@[simp] theorem refuse_fltSub (s : State) : (refuse s).fltSub = s.fltSub := rfl
@[simp] theorem refuse_fltClass (s : State) : (refuse s).fltClass = s.fltClass := rfl
@[simp] theorem refuse_hwerr (s : State) : (refuse s).hwerr = s.hwerr := rfl
@[simp] theorem refuse_rej (s : State) : (refuse s).rej = true := rfl
@[simp] theorem refuse_deadline (s : State) : (refuse s).deadline = s.deadline := rfl
@[simp] theorem refuse_t0 (s : State) : (refuse s).t0 = s.t0 := rfl
@[simp] theorem refuse_params (s : State) : (refuse s).params = s.params := rfl
@[simp] theorem refuse_now (s : State) : (refuse s).now = s.now := rfl
@[simp] theorem refuse_inputs (s : State) : (refuse s).inputs = s.inputs := rfl
@[simp] theorem refuse_readData (s : State) : (refuse s).readData = s.readData := rfl

/-! ### `accepted` -/
@[simp] theorem accepted_fsm (s : State) : (accepted s).fsm = s.fsm := rfl
@[simp] theorem accepted_bitcnt (s : State) : (accepted s).bitcnt = s.bitcnt := rfl
@[simp] theorem accepted_phase (s : State) : (accepted s).phase = s.phase := rfl
@[simp] theorem accepted_tsA (s : State) : (accepted s).tsA = s.tsA := rfl
@[simp] theorem accepted_opsel (s : State) : (accepted s).opsel = s.opsel := rfl
@[simp] theorem accepted_line (s : State) : (accepted s).line = s.line := rfl
@[simp] theorem accepted_bitbuf (s : State) : (accepted s).bitbuf = s.bitbuf := rfl
@[simp] theorem accepted_frame (s : State) : (accepted s).frame = s.frame := rfl
@[simp] theorem accepted_frameV (s : State) : (accepted s).frameV = s.frameV := rfl
@[simp] theorem accepted_chkV (s : State) : (accepted s).chkV = s.chkV := rfl
@[simp] theorem accepted_rdy (s : State) : (accepted s).rdy = s.rdy := rfl
@[simp] theorem accepted_altV (s : State) : (accepted s).altV = s.altV := rfl
@[simp] theorem accepted_humRaw (s : State) : (accepted s).humRaw = s.humRaw := rfl
@[simp] theorem accepted_tempRaw (s : State) : (accepted s).tempRaw = s.tempRaw := rfl
@[simp] theorem accepted_humF (s : State) : (accepted s).humF = s.humF := rfl
@[simp] theorem accepted_tempF (s : State) : (accepted s).tempF = s.tempF := rfl
@[simp] theorem accepted_altHumF (s : State) : (accepted s).altHumF = s.altHumF := rfl
@[simp] theorem accepted_altTempF (s : State) : (accepted s).altTempF = s.altTempF := rfl
@[simp] theorem accepted_fltV (s : State) : (accepted s).fltV = s.fltV := rfl
@[simp] theorem accepted_fltKind (s : State) : (accepted s).fltKind = s.fltKind := rfl
@[simp] theorem accepted_fltSub (s : State) : (accepted s).fltSub = s.fltSub := rfl
@[simp] theorem accepted_fltClass (s : State) : (accepted s).fltClass = s.fltClass := rfl
@[simp] theorem accepted_hwerr (s : State) : (accepted s).hwerr = s.hwerr := rfl
@[simp] theorem accepted_rej (s : State) : (accepted s).rej = false := rfl
@[simp] theorem accepted_deadline (s : State) : (accepted s).deadline = s.deadline := rfl
@[simp] theorem accepted_t0 (s : State) : (accepted s).t0 = s.t0 := rfl
@[simp] theorem accepted_params (s : State) : (accepted s).params = s.params := rfl
@[simp] theorem accepted_now (s : State) : (accepted s).now = s.now := rfl
@[simp] theorem accepted_inputs (s : State) : (accepted s).inputs = s.inputs := rfl
@[simp] theorem accepted_readData (s : State) : (accepted s).readData = s.readData := rfl

/-! ### `raiseFault` -/
@[simp] theorem raiseFault_fsm (k : FaultKind) (u : BitVec 2) (c : FaultClass) (w : Word) (e : Bool) (s : State) : (raiseFault k u c w e s).fsm = if e then .faulted else s.fsm := rfl
@[simp] theorem raiseFault_bitcnt (k : FaultKind) (u : BitVec 2) (c : FaultClass) (w : Word) (e : Bool) (s : State) : (raiseFault k u c w e s).bitcnt = s.bitcnt := rfl
@[simp] theorem raiseFault_phase (k : FaultKind) (u : BitVec 2) (c : FaultClass) (w : Word) (e : Bool) (s : State) : (raiseFault k u c w e s).phase = s.phase := rfl
@[simp] theorem raiseFault_tsA (k : FaultKind) (u : BitVec 2) (c : FaultClass) (w : Word) (e : Bool) (s : State) : (raiseFault k u c w e s).tsA = s.tsA := rfl
@[simp] theorem raiseFault_opsel (k : FaultKind) (u : BitVec 2) (c : FaultClass) (w : Word) (e : Bool) (s : State) : (raiseFault k u c w e s).opsel = s.opsel := rfl
@[simp] theorem raiseFault_line (k : FaultKind) (u : BitVec 2) (c : FaultClass) (w : Word) (e : Bool) (s : State) : (raiseFault k u c w e s).line = s.line := rfl
@[simp] theorem raiseFault_bitbuf (k : FaultKind) (u : BitVec 2) (c : FaultClass) (w : Word) (e : Bool) (s : State) : (raiseFault k u c w e s).bitbuf = s.bitbuf := rfl
@[simp] theorem raiseFault_frame (k : FaultKind) (u : BitVec 2) (c : FaultClass) (w : Word) (e : Bool) (s : State) : (raiseFault k u c w e s).frame = s.frame := rfl
@[simp] theorem raiseFault_frameV (k : FaultKind) (u : BitVec 2) (c : FaultClass) (w : Word) (e : Bool) (s : State) : (raiseFault k u c w e s).frameV = s.frameV := rfl
@[simp] theorem raiseFault_chkV (k : FaultKind) (u : BitVec 2) (c : FaultClass) (w : Word) (e : Bool) (s : State) : (raiseFault k u c w e s).chkV = s.chkV := rfl
@[simp] theorem raiseFault_rdy (k : FaultKind) (u : BitVec 2) (c : FaultClass) (w : Word) (e : Bool) (s : State) : (raiseFault k u c w e s).rdy = s.rdy := rfl
@[simp] theorem raiseFault_altV (k : FaultKind) (u : BitVec 2) (c : FaultClass) (w : Word) (e : Bool) (s : State) : (raiseFault k u c w e s).altV = s.altV := rfl
@[simp] theorem raiseFault_humRaw (k : FaultKind) (u : BitVec 2) (c : FaultClass) (w : Word) (e : Bool) (s : State) : (raiseFault k u c w e s).humRaw = s.humRaw := rfl
@[simp] theorem raiseFault_tempRaw (k : FaultKind) (u : BitVec 2) (c : FaultClass) (w : Word) (e : Bool) (s : State) : (raiseFault k u c w e s).tempRaw = s.tempRaw := rfl
@[simp] theorem raiseFault_humF (k : FaultKind) (u : BitVec 2) (c : FaultClass) (w : Word) (e : Bool) (s : State) : (raiseFault k u c w e s).humF = s.humF := rfl
@[simp] theorem raiseFault_tempF (k : FaultKind) (u : BitVec 2) (c : FaultClass) (w : Word) (e : Bool) (s : State) : (raiseFault k u c w e s).tempF = s.tempF := rfl
@[simp] theorem raiseFault_altHumF (k : FaultKind) (u : BitVec 2) (c : FaultClass) (w : Word) (e : Bool) (s : State) : (raiseFault k u c w e s).altHumF = s.altHumF := rfl
@[simp] theorem raiseFault_altTempF (k : FaultKind) (u : BitVec 2) (c : FaultClass) (w : Word) (e : Bool) (s : State) : (raiseFault k u c w e s).altTempF = s.altTempF := rfl
@[simp] theorem raiseFault_fltV (k : FaultKind) (u : BitVec 2) (c : FaultClass) (w : Word) (e : Bool) (s : State) : (raiseFault k u c w e s).fltV = true := rfl
@[simp] theorem raiseFault_fltKind (k : FaultKind) (u : BitVec 2) (c : FaultClass) (w : Word) (e : Bool) (s : State) : (raiseFault k u c w e s).fltKind = k := rfl
@[simp] theorem raiseFault_fltSub (k : FaultKind) (u : BitVec 2) (c : FaultClass) (w : Word) (e : Bool) (s : State) : (raiseFault k u c w e s).fltSub = u := rfl
@[simp] theorem raiseFault_fltClass (k : FaultKind) (u : BitVec 2) (c : FaultClass) (w : Word) (e : Bool) (s : State) : (raiseFault k u c w e s).fltClass = c := rfl
@[simp] theorem raiseFault_hwerr (k : FaultKind) (u : BitVec 2) (c : FaultClass) (w : Word) (e : Bool) (s : State) : (raiseFault k u c w e s).hwerr = w := rfl
@[simp] theorem raiseFault_rej (k : FaultKind) (u : BitVec 2) (c : FaultClass) (w : Word) (e : Bool) (s : State) : (raiseFault k u c w e s).rej = s.rej := rfl
@[simp] theorem raiseFault_deadline (k : FaultKind) (u : BitVec 2) (c : FaultClass) (w : Word) (e : Bool) (s : State) : (raiseFault k u c w e s).deadline = s.deadline := rfl
@[simp] theorem raiseFault_t0 (k : FaultKind) (u : BitVec 2) (c : FaultClass) (w : Word) (e : Bool) (s : State) : (raiseFault k u c w e s).t0 = s.t0 := rfl
@[simp] theorem raiseFault_params (k : FaultKind) (u : BitVec 2) (c : FaultClass) (w : Word) (e : Bool) (s : State) : (raiseFault k u c w e s).params = s.params := rfl
@[simp] theorem raiseFault_now (k : FaultKind) (u : BitVec 2) (c : FaultClass) (w : Word) (e : Bool) (s : State) : (raiseFault k u c w e s).now = s.now := rfl
@[simp] theorem raiseFault_inputs (k : FaultKind) (u : BitVec 2) (c : FaultClass) (w : Word) (e : Bool) (s : State) : (raiseFault k u c w e s).inputs = s.inputs := rfl
@[simp] theorem raiseFault_readData (k : FaultKind) (u : BitVec 2) (c : FaultClass) (w : Word) (e : Bool) (s : State) : (raiseFault k u c w e s).readData = s.readData := rfl

/-! ### `clearResults` -/
@[simp] theorem clearResults_fsm (s : State) : (clearResults s).fsm = s.fsm := rfl
@[simp] theorem clearResults_bitcnt (s : State) : (clearResults s).bitcnt = 0 := rfl
@[simp] theorem clearResults_phase (s : State) : (clearResults s).phase = .A := rfl
@[simp] theorem clearResults_tsA (s : State) : (clearResults s).tsA = 0 := rfl
@[simp] theorem clearResults_opsel (s : State) : (clearResults s).opsel = s.opsel := rfl
@[simp] theorem clearResults_line (s : State) : (clearResults s).line = s.line := rfl
@[simp] theorem clearResults_bitbuf (s : State) : (clearResults s).bitbuf = Vector.replicate 40 0 := rfl
@[simp] theorem clearResults_frame (s : State) : (clearResults s).frame = Vector.replicate 5 0 := rfl
@[simp] theorem clearResults_frameV (s : State) : (clearResults s).frameV = false := rfl
@[simp] theorem clearResults_chkV (s : State) : (clearResults s).chkV = false := rfl
@[simp] theorem clearResults_rdy (s : State) : (clearResults s).rdy = false := rfl
@[simp] theorem clearResults_altV (s : State) : (clearResults s).altV = false := rfl
@[simp] theorem clearResults_humRaw (s : State) : (clearResults s).humRaw = 0 := rfl
@[simp] theorem clearResults_tempRaw (s : State) : (clearResults s).tempRaw = 0 := rfl
@[simp] theorem clearResults_humF (s : State) : (clearResults s).humF = 0 := rfl
@[simp] theorem clearResults_tempF (s : State) : (clearResults s).tempF = 0 := rfl
@[simp] theorem clearResults_altHumF (s : State) : (clearResults s).altHumF = 0 := rfl
@[simp] theorem clearResults_altTempF (s : State) : (clearResults s).altTempF = 0 := rfl
@[simp] theorem clearResults_fltV (s : State) : (clearResults s).fltV = false := rfl
@[simp] theorem clearResults_fltKind (s : State) : (clearResults s).fltKind = .none := rfl
@[simp] theorem clearResults_fltSub (s : State) : (clearResults s).fltSub = 0 := rfl
@[simp] theorem clearResults_fltClass (s : State) : (clearResults s).fltClass = .sensor := rfl
@[simp] theorem clearResults_hwerr (s : State) : (clearResults s).hwerr = 0 := rfl
@[simp] theorem clearResults_rej (s : State) : (clearResults s).rej = s.rej := rfl
@[simp] theorem clearResults_deadline (s : State) : (clearResults s).deadline = s.deadline := rfl
@[simp] theorem clearResults_t0 (s : State) : (clearResults s).t0 = s.t0 := rfl
@[simp] theorem clearResults_params (s : State) : (clearResults s).params = s.params := rfl
@[simp] theorem clearResults_now (s : State) : (clearResults s).now = s.now := rfl
@[simp] theorem clearResults_inputs (s : State) : (clearResults s).inputs = s.inputs := rfl
@[simp] theorem clearResults_readData (s : State) : (clearResults s).readData = s.readData := rfl

/-! ### `startRead` -/
@[simp] theorem startRead_fsm (o : OpSel) (s : State) : (startRead o s).fsm = .startPulseSent := rfl
@[simp] theorem startRead_bitcnt (o : OpSel) (s : State) : (startRead o s).bitcnt = 0 := rfl
@[simp] theorem startRead_phase (o : OpSel) (s : State) : (startRead o s).phase = .A := rfl
@[simp] theorem startRead_tsA (o : OpSel) (s : State) : (startRead o s).tsA = 0 := rfl
@[simp] theorem startRead_opsel (o : OpSel) (s : State) : (startRead o s).opsel = o := rfl
@[simp] theorem startRead_line (o : OpSel) (s : State) : (startRead o s).line = .outLow := rfl
@[simp] theorem startRead_bitbuf (o : OpSel) (s : State) : (startRead o s).bitbuf = Vector.replicate 40 0 := rfl
@[simp] theorem startRead_frame (o : OpSel) (s : State) : (startRead o s).frame = Vector.replicate 5 0 := rfl
@[simp] theorem startRead_frameV (o : OpSel) (s : State) : (startRead o s).frameV = false := rfl
@[simp] theorem startRead_chkV (o : OpSel) (s : State) : (startRead o s).chkV = false := rfl
@[simp] theorem startRead_rdy (o : OpSel) (s : State) : (startRead o s).rdy = false := rfl
@[simp] theorem startRead_altV (o : OpSel) (s : State) : (startRead o s).altV = false := rfl
@[simp] theorem startRead_humRaw (o : OpSel) (s : State) : (startRead o s).humRaw = 0 := rfl
@[simp] theorem startRead_tempRaw (o : OpSel) (s : State) : (startRead o s).tempRaw = 0 := rfl
@[simp] theorem startRead_humF (o : OpSel) (s : State) : (startRead o s).humF = 0 := rfl
@[simp] theorem startRead_tempF (o : OpSel) (s : State) : (startRead o s).tempF = 0 := rfl
@[simp] theorem startRead_altHumF (o : OpSel) (s : State) : (startRead o s).altHumF = 0 := rfl
@[simp] theorem startRead_altTempF (o : OpSel) (s : State) : (startRead o s).altTempF = 0 := rfl
@[simp] theorem startRead_fltV (o : OpSel) (s : State) : (startRead o s).fltV = false := rfl
@[simp] theorem startRead_fltKind (o : OpSel) (s : State) : (startRead o s).fltKind = .none := rfl
@[simp] theorem startRead_fltSub (o : OpSel) (s : State) : (startRead o s).fltSub = 0 := rfl
@[simp] theorem startRead_fltClass (o : OpSel) (s : State) : (startRead o s).fltClass = .sensor := rfl
@[simp] theorem startRead_hwerr (o : OpSel) (s : State) : (startRead o s).hwerr = 0 := rfl
@[simp] theorem startRead_rej (o : OpSel) (s : State) : (startRead o s).rej = s.rej := rfl
@[simp] theorem startRead_deadline (o : OpSel) (s : State) : (startRead o s).deadline = s.deadline := rfl
@[simp] theorem startRead_t0 (o : OpSel) (s : State) : (startRead o s).t0 = s.now := rfl
@[simp] theorem startRead_params (o : OpSel) (s : State) : (startRead o s).params = s.params := rfl
@[simp] theorem startRead_now (o : OpSel) (s : State) : (startRead o s).now = s.now := rfl
@[simp] theorem startRead_inputs (o : OpSel) (s : State) : (startRead o s).inputs = s.inputs := rfl
@[simp] theorem startRead_readData (o : OpSel) (s : State) : (startRead o s).readData = s.readData := rfl

/-! ### `clearBlock` -/
@[simp] theorem clearBlock_fsm (s : State) : (clearBlock s).fsm = .idle := rfl
@[simp] theorem clearBlock_bitcnt (s : State) : (clearBlock s).bitcnt = 0 := rfl
@[simp] theorem clearBlock_phase (s : State) : (clearBlock s).phase = .A := rfl
@[simp] theorem clearBlock_tsA (s : State) : (clearBlock s).tsA = 0 := rfl
@[simp] theorem clearBlock_opsel (s : State) : (clearBlock s).opsel = .read := rfl
@[simp] theorem clearBlock_line (s : State) : (clearBlock s).line = s.line := rfl
@[simp] theorem clearBlock_bitbuf (s : State) : (clearBlock s).bitbuf = Vector.replicate 40 0 := rfl
@[simp] theorem clearBlock_frame (s : State) : (clearBlock s).frame = Vector.replicate 5 0 := rfl
@[simp] theorem clearBlock_frameV (s : State) : (clearBlock s).frameV = false := rfl
@[simp] theorem clearBlock_chkV (s : State) : (clearBlock s).chkV = false := rfl
@[simp] theorem clearBlock_rdy (s : State) : (clearBlock s).rdy = false := rfl
@[simp] theorem clearBlock_altV (s : State) : (clearBlock s).altV = false := rfl
@[simp] theorem clearBlock_humRaw (s : State) : (clearBlock s).humRaw = 0 := rfl
@[simp] theorem clearBlock_tempRaw (s : State) : (clearBlock s).tempRaw = 0 := rfl
@[simp] theorem clearBlock_humF (s : State) : (clearBlock s).humF = 0 := rfl
@[simp] theorem clearBlock_tempF (s : State) : (clearBlock s).tempF = 0 := rfl
@[simp] theorem clearBlock_altHumF (s : State) : (clearBlock s).altHumF = 0 := rfl
@[simp] theorem clearBlock_altTempF (s : State) : (clearBlock s).altTempF = 0 := rfl
@[simp] theorem clearBlock_fltV (s : State) : (clearBlock s).fltV = false := rfl
@[simp] theorem clearBlock_fltKind (s : State) : (clearBlock s).fltKind = .none := rfl
@[simp] theorem clearBlock_fltSub (s : State) : (clearBlock s).fltSub = 0 := rfl
@[simp] theorem clearBlock_fltClass (s : State) : (clearBlock s).fltClass = .sensor := rfl
@[simp] theorem clearBlock_hwerr (s : State) : (clearBlock s).hwerr = 0 := rfl
@[simp] theorem clearBlock_rej (s : State) : (clearBlock s).rej = s.rej := rfl
@[simp] theorem clearBlock_deadline (s : State) : (clearBlock s).deadline = s.deadline := rfl
@[simp] theorem clearBlock_t0 (s : State) : (clearBlock s).t0 = s.t0 := rfl
@[simp] theorem clearBlock_params (s : State) : (clearBlock s).params = s.params := rfl
@[simp] theorem clearBlock_now (s : State) : (clearBlock s).now = s.now := rfl
@[simp] theorem clearBlock_inputs (s : State) : (clearBlock s).inputs = s.inputs := rfl
@[simp] theorem clearBlock_readData (s : State) : (clearBlock s).readData = s.readData := rfl

/-! ### `storeElement` -/
@[simp] theorem storeElement_fsm (v : Byte) (s : State) : (storeElement v s).fsm = s.fsm := rfl
@[simp] theorem storeElement_bitcnt (v : Byte) (s : State) : (storeElement v s).bitcnt = s.bitcnt := rfl
@[simp] theorem storeElement_phase (v : Byte) (s : State) : (storeElement v s).phase = s.phase := rfl
@[simp] theorem storeElement_tsA (v : Byte) (s : State) : (storeElement v s).tsA = s.tsA := rfl
@[simp] theorem storeElement_opsel (v : Byte) (s : State) : (storeElement v s).opsel = s.opsel := rfl
@[simp] theorem storeElement_line (v : Byte) (s : State) : (storeElement v s).line = s.line := rfl
@[simp] theorem storeElement_frame (v : Byte) (s : State) : (storeElement v s).frame = s.frame := rfl
@[simp] theorem storeElement_frameV (v : Byte) (s : State) : (storeElement v s).frameV = s.frameV := rfl
@[simp] theorem storeElement_chkV (v : Byte) (s : State) : (storeElement v s).chkV = s.chkV := rfl
@[simp] theorem storeElement_rdy (v : Byte) (s : State) : (storeElement v s).rdy = s.rdy := rfl
@[simp] theorem storeElement_altV (v : Byte) (s : State) : (storeElement v s).altV = s.altV := rfl
@[simp] theorem storeElement_humRaw (v : Byte) (s : State) : (storeElement v s).humRaw = s.humRaw := rfl
@[simp] theorem storeElement_tempRaw (v : Byte) (s : State) : (storeElement v s).tempRaw = s.tempRaw := rfl
@[simp] theorem storeElement_humF (v : Byte) (s : State) : (storeElement v s).humF = s.humF := rfl
@[simp] theorem storeElement_tempF (v : Byte) (s : State) : (storeElement v s).tempF = s.tempF := rfl
@[simp] theorem storeElement_altHumF (v : Byte) (s : State) : (storeElement v s).altHumF = s.altHumF := rfl
@[simp] theorem storeElement_altTempF (v : Byte) (s : State) : (storeElement v s).altTempF = s.altTempF := rfl
@[simp] theorem storeElement_fltV (v : Byte) (s : State) : (storeElement v s).fltV = s.fltV := rfl
@[simp] theorem storeElement_fltKind (v : Byte) (s : State) : (storeElement v s).fltKind = s.fltKind := rfl
@[simp] theorem storeElement_fltSub (v : Byte) (s : State) : (storeElement v s).fltSub = s.fltSub := rfl
@[simp] theorem storeElement_fltClass (v : Byte) (s : State) : (storeElement v s).fltClass = s.fltClass := rfl
@[simp] theorem storeElement_hwerr (v : Byte) (s : State) : (storeElement v s).hwerr = s.hwerr := rfl
@[simp] theorem storeElement_rej (v : Byte) (s : State) : (storeElement v s).rej = s.rej := rfl
@[simp] theorem storeElement_deadline (v : Byte) (s : State) : (storeElement v s).deadline = s.deadline := rfl
@[simp] theorem storeElement_t0 (v : Byte) (s : State) : (storeElement v s).t0 = s.t0 := rfl
@[simp] theorem storeElement_params (v : Byte) (s : State) : (storeElement v s).params = s.params := rfl
@[simp] theorem storeElement_now (v : Byte) (s : State) : (storeElement v s).now = s.now := rfl
@[simp] theorem storeElement_inputs (v : Byte) (s : State) : (storeElement v s).inputs = s.inputs := rfl
@[simp] theorem storeElement_readData (v : Byte) (s : State) : (storeElement v s).readData = s.readData := rfl

/-! ### `captureBit` -/
@[simp] theorem captureBit_fsm (b : Byte) (s : State) : (captureBit b s).fsm = s.fsm := rfl
@[simp] theorem captureBit_bitcnt (b : Byte) (s : State) : (captureBit b s).bitcnt = s.bitcnt + 1 := rfl
@[simp] theorem captureBit_phase (b : Byte) (s : State) : (captureBit b s).phase = .A := rfl
@[simp] theorem captureBit_tsA (b : Byte) (s : State) : (captureBit b s).tsA = s.tsA := rfl
@[simp] theorem captureBit_opsel (b : Byte) (s : State) : (captureBit b s).opsel = s.opsel := rfl
@[simp] theorem captureBit_line (b : Byte) (s : State) : (captureBit b s).line = s.line := rfl
@[simp] theorem captureBit_frame (b : Byte) (s : State) : (captureBit b s).frame = s.frame := rfl
@[simp] theorem captureBit_frameV (b : Byte) (s : State) : (captureBit b s).frameV = s.frameV := rfl
@[simp] theorem captureBit_chkV (b : Byte) (s : State) : (captureBit b s).chkV = s.chkV := rfl
@[simp] theorem captureBit_rdy (b : Byte) (s : State) : (captureBit b s).rdy = s.rdy := rfl
@[simp] theorem captureBit_altV (b : Byte) (s : State) : (captureBit b s).altV = s.altV := rfl
@[simp] theorem captureBit_humRaw (b : Byte) (s : State) : (captureBit b s).humRaw = s.humRaw := rfl
@[simp] theorem captureBit_tempRaw (b : Byte) (s : State) : (captureBit b s).tempRaw = s.tempRaw := rfl
@[simp] theorem captureBit_humF (b : Byte) (s : State) : (captureBit b s).humF = s.humF := rfl
@[simp] theorem captureBit_tempF (b : Byte) (s : State) : (captureBit b s).tempF = s.tempF := rfl
@[simp] theorem captureBit_altHumF (b : Byte) (s : State) : (captureBit b s).altHumF = s.altHumF := rfl
@[simp] theorem captureBit_altTempF (b : Byte) (s : State) : (captureBit b s).altTempF = s.altTempF := rfl
@[simp] theorem captureBit_fltV (b : Byte) (s : State) : (captureBit b s).fltV = s.fltV := rfl
@[simp] theorem captureBit_fltKind (b : Byte) (s : State) : (captureBit b s).fltKind = s.fltKind := rfl
@[simp] theorem captureBit_fltSub (b : Byte) (s : State) : (captureBit b s).fltSub = s.fltSub := rfl
@[simp] theorem captureBit_fltClass (b : Byte) (s : State) : (captureBit b s).fltClass = s.fltClass := rfl
@[simp] theorem captureBit_hwerr (b : Byte) (s : State) : (captureBit b s).hwerr = s.hwerr := rfl
@[simp] theorem captureBit_rej (b : Byte) (s : State) : (captureBit b s).rej = s.rej := rfl
@[simp] theorem captureBit_deadline (b : Byte) (s : State) : (captureBit b s).deadline = s.deadline := rfl
@[simp] theorem captureBit_t0 (b : Byte) (s : State) : (captureBit b s).t0 = s.t0 := rfl
@[simp] theorem captureBit_params (b : Byte) (s : State) : (captureBit b s).params = s.params := rfl
@[simp] theorem captureBit_now (b : Byte) (s : State) : (captureBit b s).now = s.now := rfl
@[simp] theorem captureBit_inputs (b : Byte) (s : State) : (captureBit b s).inputs = s.inputs := rfl
@[simp] theorem captureBit_readData (b : Byte) (s : State) : (captureBit b s).readData = s.readData := rfl

/-! ### `pushElement` -/
@[simp] theorem pushElement_fsm (v : Byte) (s : State) : (pushElement v s).fsm = s.fsm := rfl
@[simp] theorem pushElement_bitcnt (v : Byte) (s : State) : (pushElement v s).bitcnt = satInc s.bitcnt := rfl
@[simp] theorem pushElement_phase (v : Byte) (s : State) : (pushElement v s).phase = s.phase := rfl
@[simp] theorem pushElement_tsA (v : Byte) (s : State) : (pushElement v s).tsA = s.tsA := rfl
@[simp] theorem pushElement_opsel (v : Byte) (s : State) : (pushElement v s).opsel = s.opsel := rfl
@[simp] theorem pushElement_line (v : Byte) (s : State) : (pushElement v s).line = s.line := rfl
@[simp] theorem pushElement_frame (v : Byte) (s : State) : (pushElement v s).frame = s.frame := rfl
@[simp] theorem pushElement_frameV (v : Byte) (s : State) : (pushElement v s).frameV = s.frameV := rfl
@[simp] theorem pushElement_chkV (v : Byte) (s : State) : (pushElement v s).chkV = s.chkV := rfl
@[simp] theorem pushElement_rdy (v : Byte) (s : State) : (pushElement v s).rdy = s.rdy := rfl
@[simp] theorem pushElement_altV (v : Byte) (s : State) : (pushElement v s).altV = s.altV := rfl
@[simp] theorem pushElement_humRaw (v : Byte) (s : State) : (pushElement v s).humRaw = s.humRaw := rfl
@[simp] theorem pushElement_tempRaw (v : Byte) (s : State) : (pushElement v s).tempRaw = s.tempRaw := rfl
@[simp] theorem pushElement_humF (v : Byte) (s : State) : (pushElement v s).humF = s.humF := rfl
@[simp] theorem pushElement_tempF (v : Byte) (s : State) : (pushElement v s).tempF = s.tempF := rfl
@[simp] theorem pushElement_altHumF (v : Byte) (s : State) : (pushElement v s).altHumF = s.altHumF := rfl
@[simp] theorem pushElement_altTempF (v : Byte) (s : State) : (pushElement v s).altTempF = s.altTempF := rfl
@[simp] theorem pushElement_fltV (v : Byte) (s : State) : (pushElement v s).fltV = s.fltV := rfl
@[simp] theorem pushElement_fltKind (v : Byte) (s : State) : (pushElement v s).fltKind = s.fltKind := rfl
@[simp] theorem pushElement_fltSub (v : Byte) (s : State) : (pushElement v s).fltSub = s.fltSub := rfl
@[simp] theorem pushElement_fltClass (v : Byte) (s : State) : (pushElement v s).fltClass = s.fltClass := rfl
@[simp] theorem pushElement_hwerr (v : Byte) (s : State) : (pushElement v s).hwerr = s.hwerr := rfl
@[simp] theorem pushElement_rej (v : Byte) (s : State) : (pushElement v s).rej = s.rej := rfl
@[simp] theorem pushElement_deadline (v : Byte) (s : State) : (pushElement v s).deadline = s.deadline := rfl
@[simp] theorem pushElement_t0 (v : Byte) (s : State) : (pushElement v s).t0 = s.t0 := rfl
@[simp] theorem pushElement_params (v : Byte) (s : State) : (pushElement v s).params = s.params := rfl
@[simp] theorem pushElement_now (v : Byte) (s : State) : (pushElement v s).now = s.now := rfl
@[simp] theorem pushElement_inputs (v : Byte) (s : State) : (pushElement v s).inputs = s.inputs := rfl
@[simp] theorem pushElement_readData (v : Byte) (s : State) : (pushElement v s).readData = s.readData := rfl

/-! ### `assembleStage` -/
@[simp] theorem assembleStage_fsm (s : State) : (assembleStage s).fsm = s.fsm := rfl
@[simp] theorem assembleStage_bitcnt (s : State) : (assembleStage s).bitcnt = s.bitcnt := rfl
@[simp] theorem assembleStage_phase (s : State) : (assembleStage s).phase = s.phase := rfl
@[simp] theorem assembleStage_tsA (s : State) : (assembleStage s).tsA = s.tsA := rfl
@[simp] theorem assembleStage_opsel (s : State) : (assembleStage s).opsel = s.opsel := rfl
@[simp] theorem assembleStage_line (s : State) : (assembleStage s).line = s.line := rfl
@[simp] theorem assembleStage_bitbuf (s : State) : (assembleStage s).bitbuf = s.bitbuf := rfl
@[simp] theorem assembleStage_frame (s : State) : (assembleStage s).frame = s.frame := rfl
@[simp] theorem assembleStage_frameV (s : State) : (assembleStage s).frameV = s.frameV := rfl
@[simp] theorem assembleStage_chkV (s : State) : (assembleStage s).chkV = s.chkV := rfl
@[simp] theorem assembleStage_rdy (s : State) : (assembleStage s).rdy = true := rfl
@[simp] theorem assembleStage_altV (s : State) : (assembleStage s).altV = false := rfl
@[simp] theorem assembleStage_humRaw (s : State) : (assembleStage s).humRaw = humRawOf s.frame := rfl
@[simp] theorem assembleStage_tempRaw (s : State) : (assembleStage s).tempRaw = tempRawOf s.frame := rfl
@[simp] theorem assembleStage_humF (s : State) : (assembleStage s).humF = tenths s.params.floatFmt (humRawOf s.frame) := rfl
@[simp] theorem assembleStage_tempF (s : State) : (assembleStage s).tempF = tenths s.params.floatFmt (tempRawOf s.frame) := rfl
@[simp] theorem assembleStage_altHumF (s : State) : (assembleStage s).altHumF = s.altHumF := rfl
@[simp] theorem assembleStage_altTempF (s : State) : (assembleStage s).altTempF = s.altTempF := rfl
@[simp] theorem assembleStage_fltV (s : State) : (assembleStage s).fltV = s.fltV := rfl
@[simp] theorem assembleStage_fltKind (s : State) : (assembleStage s).fltKind = s.fltKind := rfl
@[simp] theorem assembleStage_fltSub (s : State) : (assembleStage s).fltSub = s.fltSub := rfl
@[simp] theorem assembleStage_fltClass (s : State) : (assembleStage s).fltClass = s.fltClass := rfl
@[simp] theorem assembleStage_hwerr (s : State) : (assembleStage s).hwerr = s.hwerr := rfl
@[simp] theorem assembleStage_rej (s : State) : (assembleStage s).rej = s.rej := rfl
@[simp] theorem assembleStage_deadline (s : State) : (assembleStage s).deadline = s.deadline := rfl
@[simp] theorem assembleStage_t0 (s : State) : (assembleStage s).t0 = s.t0 := rfl
@[simp] theorem assembleStage_params (s : State) : (assembleStage s).params = s.params := rfl
@[simp] theorem assembleStage_now (s : State) : (assembleStage s).now = s.now := rfl
@[simp] theorem assembleStage_inputs (s : State) : (assembleStage s).inputs = s.inputs := rfl
@[simp] theorem assembleStage_readData (s : State) : (assembleStage s).readData = s.readData := rfl

/-! ### `altScaleStage` -/
@[simp] theorem altScaleStage_fsm (s : State) : (altScaleStage s).fsm = s.fsm := rfl
@[simp] theorem altScaleStage_bitcnt (s : State) : (altScaleStage s).bitcnt = s.bitcnt := rfl
@[simp] theorem altScaleStage_phase (s : State) : (altScaleStage s).phase = s.phase := rfl
@[simp] theorem altScaleStage_tsA (s : State) : (altScaleStage s).tsA = s.tsA := rfl
@[simp] theorem altScaleStage_opsel (s : State) : (altScaleStage s).opsel = s.opsel := rfl
@[simp] theorem altScaleStage_line (s : State) : (altScaleStage s).line = s.line := rfl
@[simp] theorem altScaleStage_bitbuf (s : State) : (altScaleStage s).bitbuf = s.bitbuf := rfl
@[simp] theorem altScaleStage_frame (s : State) : (altScaleStage s).frame = s.frame := rfl
@[simp] theorem altScaleStage_frameV (s : State) : (altScaleStage s).frameV = s.frameV := rfl
@[simp] theorem altScaleStage_chkV (s : State) : (altScaleStage s).chkV = s.chkV := rfl
@[simp] theorem altScaleStage_rdy (s : State) : (altScaleStage s).rdy = s.rdy := rfl
@[simp] theorem altScaleStage_altV (s : State) : (altScaleStage s).altV = true := rfl
@[simp] theorem altScaleStage_humRaw (s : State) : (altScaleStage s).humRaw = s.humRaw := rfl
@[simp] theorem altScaleStage_tempRaw (s : State) : (altScaleStage s).tempRaw = s.tempRaw := rfl
@[simp] theorem altScaleStage_humF (s : State) : (altScaleStage s).humF = s.humF := rfl
@[simp] theorem altScaleStage_tempF (s : State) : (altScaleStage s).tempF = s.tempF := rfl
@[simp] theorem altScaleStage_altHumF (s : State) : (altScaleStage s).altHumF = s.humF := rfl
@[simp] theorem altScaleStage_altTempF (s : State) : (altScaleStage s).altTempF = altTemp s.params.floatFmt s.tempF := rfl
@[simp] theorem altScaleStage_fltV (s : State) : (altScaleStage s).fltV = s.fltV := rfl
@[simp] theorem altScaleStage_fltKind (s : State) : (altScaleStage s).fltKind = s.fltKind := rfl
@[simp] theorem altScaleStage_fltSub (s : State) : (altScaleStage s).fltSub = s.fltSub := rfl
@[simp] theorem altScaleStage_fltClass (s : State) : (altScaleStage s).fltClass = s.fltClass := rfl
@[simp] theorem altScaleStage_hwerr (s : State) : (altScaleStage s).hwerr = s.hwerr := rfl
@[simp] theorem altScaleStage_rej (s : State) : (altScaleStage s).rej = s.rej := rfl
@[simp] theorem altScaleStage_deadline (s : State) : (altScaleStage s).deadline = s.deadline := rfl
@[simp] theorem altScaleStage_t0 (s : State) : (altScaleStage s).t0 = s.t0 := rfl
@[simp] theorem altScaleStage_params (s : State) : (altScaleStage s).params = s.params := rfl
@[simp] theorem altScaleStage_now (s : State) : (altScaleStage s).now = s.now := rfl
@[simp] theorem altScaleStage_inputs (s : State) : (altScaleStage s).inputs = s.inputs := rfl
@[simp] theorem altScaleStage_readData (s : State) : (altScaleStage s).readData = s.readData := rfl

/-! ### BUSY, DONE and the stream depend on STATE alone -/

theorem busy_iff (s : State) :
    s.busy = true ↔ s.fsm = .startPulseSent ∨ s.fsm = .awaitingAck ∨ s.fsm = .collectingBits := by
  unfold State.busy; cases s.fsm <;> simp

theorem not_busy_iff (s : State) :
    s.busy = false ↔ s.fsm = .idle ∨ s.fsm = .complete ∨ s.fsm = .faulted := by
  unfold State.busy; cases s.fsm <;> simp

theorem busy_of_fsm {s t : State} (h : t.fsm = s.fsm) : t.busy = s.busy := by
  unfold State.busy; rw [h]

theorem streamOpen_iff (s : State) :
    s.streamOpen = true ↔ s.fsm = .awaitingAck ∨ s.fsm = .collectingBits := by
  unfold State.streamOpen; cases s.fsm <;> simp

@[simp] theorem refuse_busy (s : State) : (refuse s).busy = s.busy := rfl
@[simp] theorem accepted_busy (s : State) : (accepted s).busy = s.busy := rfl
@[simp] theorem startRead_busy (o : OpSel) (s : State) : (startRead o s).busy = true := rfl
@[simp] theorem clearBlock_busy (s : State) : (clearBlock s).busy = false := rfl

/-- A store reaches element BITCNT and no other. -/
theorem storeElement_bitbuf (v : Byte) (s : State) (i : Fin 40) :
    (storeElement v s).bitbuf[i] = if i.val = s.bitcnt.toNat then v else s.bitbuf[i] := by
  have h : (storeElement v s).bitbuf = s.bitbuf.setIfInBounds s.bitcnt.toNat v := rfl
  simp only [h, Fin.getElem_fin, Vector.getElem_setIfInBounds, eq_comm (a := s.bitcnt.toNat)]

theorem captureBit_bitbuf (b : Byte) (s : State) (i : Fin 40) :
    (captureBit b s).bitbuf[i] = if i.val = s.bitcnt.toNat then b else s.bitbuf[i] :=
  storeElement_bitbuf b s i

theorem pushElement_bitbuf (v : Byte) (s : State) (i : Fin 40) :
    (pushElement v s).bitbuf[i] = if i.val = s.bitcnt.toNat then v else s.bitbuf[i] :=
  storeElement_bitbuf v s i

end Sys2Proof.Machine
end

