-- ==== Sys2Proof/Laws/Ops.lean ====
section
/-! SUPPORT. For each shared operation, once, everything it can do; later proofs cite these and do not unfold. -/

namespace Sys2Proof.Machine

/-! ### The fault record after each shared operation (R21, R157, R160) -/

@[simp] theorem refuse_record (s : State) : (refuse s).record = s.record := rfl
@[simp] theorem accepted_record (s : State) : (accepted s).record = s.record := rfl
@[simp] theorem raiseFault_record (k : FaultKind) (u : BitVec 2) (c : FaultClass) (w : Word) (e : Bool) (s : State) :
    (raiseFault k u c w e s).record = (true, k, u, c, w) := rfl
@[simp] theorem clearResults_record (s : State) : (clearResults s).record = (false, .none, 0, .sensor, 0) := rfl
@[simp] theorem startRead_record (o : OpSel) (s : State) :
    (startRead o s).record = (false, .none, 0, .sensor, 0) := rfl
@[simp] theorem clearBlock_record (s : State) : (clearBlock s).record = (false, .none, 0, .sensor, 0) := rfl
@[simp] theorem captureBit_record (b : Byte) (s : State) : (captureBit b s).record = s.record := rfl
@[simp] theorem pushElement_record (a : Byte) (s : State) : (pushElement a s).record = s.record := rfl
@[simp] theorem assembleStage_record (s : State) : (assembleStage s).record = s.record := rfl
@[simp] theorem altScaleStage_record (s : State) : (altScaleStage s).record = s.record := rfl

/-! ### What each shared operation can do -/

/-- The three outcomes of an accepted-or-refused command (R130). -/
theorem acceptCmd_cases (flag : Bool) (rule : State → State) (s : State) :
    (s.busy = false ∧ flag = true ∧ acceptCmd flag rule s = .next (accepted (rule s))) ∨
    ((s.busy = true ∨ flag = false) ∧ acceptCmd flag rule s = .next (refuse s)) := by
  unfold acceptCmd
  cases hb : s.busy <;> cases flag <;> simp

/-- A command answers a next state. -/
theorem acceptCmd_next (flag : Bool) (rule : State → State) (s : State) :
    ∃ t, acceptCmd flag rule s = .next t := by
  rcases acceptCmd_cases flag rule s with ⟨-, -, h⟩ | ⟨-, h⟩ <;> exact ⟨_, h⟩

/-- The three outcomes of a fault that may fall in the start pulse (R88, R89, R90). -/
theorem faultInFlight_cases (k : FaultKind) (w : Word) (s : State) :
    (s.busy = false ∧ faultInFlight k w s = s) ∨
    (s.fsm = .startPulseSent ∧
      faultInFlight k w s = { raiseFault k subNone .sensor w true s with line := .unclaimed }) ∨
    (s.streamOpen = true ∧ faultInFlight k w s = raiseFault k subNone .sensor w true s) := by
  unfold faultInFlight State.busy State.streamOpen
  cases h : s.fsm <;> simp

/-- The two outcomes of PACK's stage (R111). -/
theorem packStage_cases (s : State) :
    (s.bitcnt ≠ 40 ∧
      packStage s =
        { s with
          chkV := false, rdy := false, altV := false, frameV := false, fltV := true, fltKind := .decode,
          fltSub := 0, fltClass := .conversion, hwerr := 0 }) ∨
    (s.bitcnt = 40 ∧
      packStage s =
        { s with chkV := false, rdy := false, altV := false, frameV := true, frame := packFrame s.bitbuf }) := by
  by_cases h : s.bitcnt = 40
  · exact .inr ⟨h, (if_neg (not_not.2 h)).trans rfl⟩
  · exact .inl ⟨h, (if_pos h).trans rfl⟩

/-- The two outcomes of VALIDATE's stage (R113). -/
theorem validateStage_cases (s : State) :
    (checksum s.frame = s.frame[4] ∧
      validateStage s = { s with rdy := false, altV := false, chkV := true }) ∨
    (checksum s.frame ≠ s.frame[4] ∧
      validateStage s =
        { s with
          rdy := false, altV := false, chkV := false, fltV := true, fltKind := .decode, fltSub := 1,
          fltClass := .conversion, hwerr := 0 }) := by
  by_cases h : checksum s.frame = s.frame[4]
  · exact .inl ⟨h, (if_pos h).trans rfl⟩
  · exact .inr ⟨h, (if_neg h).trans rfl⟩

/-- The three outcomes of the pipeline (R115, R162). -/
theorem decodeStages_cases (s : State) :
    (s.bitcnt ≠ 40 ∧
      decodeStages s =
        { s with
          chkV := false, rdy := false, altV := false, frameV := false, fltV := true, fltKind := .decode,
          fltSub := 0, fltClass := .conversion, hwerr := 0 }) ∨
    (s.bitcnt = 40 ∧ checksum (packFrame s.bitbuf) ≠ (packFrame s.bitbuf)[4] ∧
      decodeStages s =
        { s with
          frame := packFrame s.bitbuf, frameV := true, rdy := false, altV := false, chkV := false,
          fltV := true, fltKind := .decode, fltSub := 1, fltClass := .conversion, hwerr := 0 }) ∨
    (s.bitcnt = 40 ∧ checksum (packFrame s.bitbuf) = (packFrame s.bitbuf)[4] ∧
      decodeStages s =
        { s with
          frame := packFrame s.bitbuf, frameV := true, chkV := true, altV := false, rdy := true,
          humRaw := humRawOf (packFrame s.bitbuf), tempRaw := tempRawOf (packFrame s.bitbuf),
          humF := tenths s.params.floatFmt (humRawOf (packFrame s.bitbuf)),
          tempF := tenths s.params.floatFmt (tempRawOf (packFrame s.bitbuf)) }) := by
  rcases packStage_cases s with ⟨hb, hp⟩ | ⟨hb, hp⟩
  · refine .inl ⟨hb, (if_neg ?_).trans hp⟩
    simp [hp]
  · have hf : decodeStages s = if (validateStage (packStage s)).chkV then
        assembleStage (validateStage (packStage s)) else validateStage (packStage s) := by
      refine (if_pos ?_).trans rfl
      simp [hp]
    rw [hp] at hf
    rcases validateStage_cases { s with chkV := false, rdy := false, altV := false, frameV := true, frame := packFrame s.bitbuf } with ⟨hc, hv⟩ | ⟨hc, hv⟩
    · rw [hv] at hf
      exact .inr (.inr ⟨hb, hc, hf⟩)
    · rw [hv] at hf
      exact .inr (.inl ⟨hb, hc, hf⟩)

/-- The outcomes of a bit capture that does not complete the read, and of one that does (R84, R85). -/
theorem captureEdge_cases (ts : Nanos) (s : State) :
    (s.phase = .A ∧ captureEdge ts s = { s with tsA := ts, phase := .B }) ∨
    (s.phase = .B ∧ s.bitcnt + 1 ≠ 40 ∧ captureEdge ts s = captureBit (bitOf s.tsA ts) s) ∨
    (s.phase = .B ∧ s.bitcnt + 1 = 40 ∧ captureEdge ts s = completeRead (captureBit (bitOf s.tsA ts) s)) := by
  unfold captureEdge
  cases hp : s.phase
  · exact .inl ⟨rfl, rfl⟩
  · by_cases h : s.bitcnt + 1 = 40
    · exact .inr (.inr ⟨rfl, h, if_pos h⟩)
    · exact .inr (.inl ⟨rfl, h, if_neg h⟩)

/-- The outcomes of the completion of a read (R85). -/
theorem completeRead_cases (s : State) :
    (s.opsel = .read ∧ completeRead s = { s with fsm := .complete }) ∨
    (s.opsel = .readEnv ∧
      completeRead s = { decodeStages s with fsm := if (decodeStages s).rdy then .complete else .faulted }) := by
  unfold completeRead
  cases s.opsel
  · exact .inl ⟨rfl, rfl⟩
  · exact .inr ⟨rfl, rfl⟩

/-- Sequencing of two meanings that both answer next states. -/
@[simp] theorem andThen_next (s : State) (f : State → Host.Outcome State Fault Refusal) :
    andThen (.next s) f = f s := rfl

end Sys2Proof.Machine
end

