-- ==== Sys2Proof/Laws/Exec.lean ====
section
/-! SUPPORT. What `exec` and one step can do, said once: `exec` always answers a next state, and that state is one of the
effects listed by `ExecEffect`. Claims about every instruction are case analyses over it. -/

namespace Sys2Proof.Machine

/-- The instruction is one of the five events (R65, R66). -/
def isEvent : Instr → Bool
  | .edge _ _ => true
  | .endOfStream => true
  | .lineError _ => true
  | .holdDone => true
  | .deadline => true
  | .nop => false
  | .read => false
  | .readEnv => false
  | .clear => false
  | .pushBit _ => false
  | .pack => false
  | .validate => false
  | .assemble => false
  | .decode => false
  | .altScale => false

/-- The stage flag a command needs (R130, R123). -/
def neededFlag (s : State) : Instr → Bool
  | .validate => s.frameV
  | .assemble => s.chkV
  | .altScale => s.rdy
  | .nop => true
  | .read => true
  | .readEnv => true
  | .clear => true
  | .pushBit _ => true
  | .pack => true
  | .decode => true
  | .edge _ _ => true
  | .endOfStream => true
  | .lineError _ => true
  | .holdDone => true
  | .deadline => true

/-- The effects an instruction can have (R90, R130), each with the condition under which it has it. -/
inductive ExecEffect (s : State) : Instr → State → Prop where
  | nop : ExecEffect s .nop (accepted s)
  | refused (i : Instr) : isEvent i = false → i ≠ .nop → s.busy = true ∨ neededFlag s i = false →
      ExecEffect s i (refuse s)
  | read : s.busy = false → ExecEffect s .read (accepted (startRead .read s))
  | readEnv : s.busy = false → ExecEffect s .readEnv (accepted (startRead .readEnv s))
  | clear : s.busy = false → ExecEffect s .clear (accepted (clearBlock s))
  | pushBit (a : Byte) : s.busy = false → ExecEffect s (.pushBit a) (accepted (pushElement a s))
  | pack : s.busy = false → ExecEffect s .pack (accepted (packStage s))
  | validate : s.busy = false → s.frameV = true → ExecEffect s .validate (accepted (validateStage s))
  | assemble : s.busy = false → s.chkV = true → ExecEffect s .assemble (accepted (assembleStage s))
  | decode : s.busy = false → ExecEffect s .decode (accepted (decodeStages s))
  | altScale : s.busy = false → s.rdy = true → ExecEffect s .altScale (accepted (altScaleStage s))
  | dropped (i : Instr) : isEvent i = true → ExecEffect s i s
  | ackOk (ts : Nanos) : s.fsm = .awaitingAck →
      ExecEffect s (.edge .falling ts) { s with fsm := .collectingBits }
  | ackFailed (ts : Nanos) : s.fsm = .awaitingAck →
      ExecEffect s (.edge .rising ts) (raiseFault .protocol subInvalidAck .sensor 0 true s)
  | firstEdge (d : EdgeDir) (ts : Nanos) : s.fsm = .collectingBits → s.phase = .A →
      ExecEffect s (.edge d ts) { s with tsA := ts, phase := .B }
  | secondEdge (d : EdgeDir) (ts : Nanos) : s.fsm = .collectingBits → s.phase = .B → s.bitcnt + 1 ≠ 40 →
      ExecEffect s (.edge d ts) (captureBit (bitOf s.tsA ts) s)
  | lastEdge (d : EdgeDir) (ts : Nanos) : s.fsm = .collectingBits → s.phase = .B → s.bitcnt + 1 = 40 →
      ExecEffect s (.edge d ts) (completeRead (captureBit (bitOf s.tsA ts) s))
  | badRead : s.streamOpen = true →
      ExecEffect s .endOfStream (raiseFault .protocol subBadRead .sensor 0 true s)
  | errorInPulse (w : Word) : s.fsm = .startPulseSent →
      ExecEffect s (.lineError w)
        { raiseFault .hardware subNone .sensor w true s with line := .unclaimed }
  | errorInStream (w : Word) : s.streamOpen = true →
      ExecEffect s (.lineError w) (raiseFault .hardware subNone .sensor w true s)
  | deadlineInPulse : s.fsm = .startPulseSent →
      ExecEffect s .deadline { raiseFault .timeout subNone .sensor 0 true s with line := .unclaimed }
  | deadlineInStream : s.streamOpen = true →
      ExecEffect s .deadline (raiseFault .timeout subNone .sensor 0 true s)
  | holdDone : s.fsm = .startPulseSent →
      ExecEffect s .holdDone { s with line := .edgeIn, fsm := .awaitingAck }

/-- A command's effect from `acceptCmd_cases`. -/
theorem acceptCmd_effect {i : Instr} {flag : Bool} {rule : State → State} {s : State}
    (hi : isEvent i = false) (hn : i ≠ .nop) (hf : flag = neededFlag s i)
    (ha : s.busy = false → flag = true → ExecEffect s i (accepted (rule s))) :
    ∃ t, acceptCmd flag rule s = .next t ∧ ExecEffect s i t := by
  rcases acceptCmd_cases flag rule s with ⟨hb, ht, h⟩ | ⟨hr, h⟩
  · exact ⟨_, h, ha hb ht⟩
  · exact ⟨_, h, .refused i hi hn (hf ▸ hr)⟩

/-- What the pipeline keeps (R115, R123). -/
theorem decodeStages_keep (s : State) :
    (decodeStages s).fsm = s.fsm ∧ (decodeStages s).bitcnt = s.bitcnt ∧ (decodeStages s).phase = s.phase ∧
    (decodeStages s).tsA = s.tsA ∧ (decodeStages s).opsel = s.opsel ∧ (decodeStages s).line = s.line ∧
    (decodeStages s).bitbuf = s.bitbuf ∧ (decodeStages s).rej = s.rej ∧ (decodeStages s).deadline = s.deadline ∧
    (decodeStages s).t0 = s.t0 ∧ (decodeStages s).params = s.params ∧ (decodeStages s).now = s.now ∧
    (decodeStages s).inputs = s.inputs ∧ (decodeStages s).readData = s.readData := by
  rcases decodeStages_cases s with ⟨-, h⟩ | ⟨-, -, h⟩ | ⟨-, -, h⟩ <;> simp only [h, and_self]

/-- What completion keeps, and where it ends (R85). -/
theorem completeRead_keep (s : State) :
    ((completeRead s).fsm = .complete ∨ (completeRead s).fsm = .faulted) ∧
    (completeRead s).bitcnt = s.bitcnt ∧ (completeRead s).phase = s.phase ∧ (completeRead s).tsA = s.tsA ∧
    (completeRead s).opsel = s.opsel ∧ (completeRead s).line = s.line ∧ (completeRead s).bitbuf = s.bitbuf ∧
    (completeRead s).rej = s.rej ∧ (completeRead s).deadline = s.deadline ∧ (completeRead s).t0 = s.t0 ∧
    (completeRead s).params = s.params ∧ (completeRead s).now = s.now ∧ (completeRead s).inputs = s.inputs ∧
    (completeRead s).readData = s.readData := by
  rcases completeRead_cases s with ⟨-, h⟩ | ⟨-, h⟩
  · simp only [h, and_self, true_or]
  · have hk := decodeStages_keep s
    rw [h]
    refine ⟨?_, hk.2⟩
    simp only []
    split
    · exact .inl rfl
    · exact .inr rfl

/-- `exec` answers a next state, and it is one of the listed effects. -/
theorem exec_effect (i : Instr) (s : State) : ∃ t, exec i s = .next t ∧ ExecEffect s i t := by
  cases i with
  | nop => exact ⟨_, rfl, .nop⟩
  | read => exact acceptCmd_effect rfl nofun rfl fun hb _ => .read hb
  | readEnv => exact acceptCmd_effect rfl nofun rfl fun hb _ => .readEnv hb
  | clear => exact acceptCmd_effect rfl nofun rfl fun hb _ => .clear hb
  | pushBit a => exact acceptCmd_effect rfl nofun rfl fun hb _ => .pushBit a hb
  | pack => exact acceptCmd_effect rfl nofun rfl fun hb _ => .pack hb
  | validate => exact acceptCmd_effect rfl nofun rfl fun hb hf => .validate hb hf
  | assemble => exact acceptCmd_effect rfl nofun rfl fun hb hf => .assemble hb hf
  | decode => exact acceptCmd_effect rfl nofun rfl fun hb _ => .decode hb
  | altScale => exact acceptCmd_effect rfl nofun rfl fun hb hf => .altScale hb hf
  | edge d ts =>
    simp only [exec, execEdge]
    cases hf : s.fsm
    case awaitingAck =>
      cases d
      · exact ⟨_, rfl, .ackOk ts hf⟩
      · exact ⟨_, rfl, .ackFailed ts hf⟩
    case collectingBits =>
      refine ⟨_, rfl, ?_⟩
      rcases captureEdge_cases ts s with ⟨hp, h⟩ | ⟨hp, hc, h⟩ | ⟨hp, hc, h⟩ <;> rw [h]
      · exact .firstEdge d ts hf hp
      · exact .secondEdge d ts hf hp hc
      · exact .lastEdge d ts hf hp hc
    all_goals exact ⟨_, rfl, .dropped _ rfl⟩
  | endOfStream =>
    simp only [exec, execEndOfStream]
    split
    · exact ⟨_, rfl, .badRead ‹_›⟩
    · exact ⟨_, rfl, .dropped _ rfl⟩
  | lineError w =>
    refine ⟨_, rfl, ?_⟩
    rcases faultInFlight_cases .hardware w s with ⟨-, h⟩ | ⟨hf, h⟩ | ⟨ho, h⟩ <;> rw [h]
    · exact .dropped _ rfl
    · exact .errorInPulse w hf
    · exact .errorInStream w ho
  | holdDone =>
    simp only [exec, execHoldDone]
    cases hf : s.fsm
    case startPulseSent => exact ⟨_, rfl, .holdDone hf⟩
    all_goals exact ⟨_, rfl, .dropped _ rfl⟩
  | deadline =>
    refine ⟨_, rfl, ?_⟩
    rcases faultInFlight_cases .timeout 0 s with ⟨-, h⟩ | ⟨hf, h⟩ | ⟨ho, h⟩ <;> rw [h]
    · exact .dropped _ rfl
    · exact .deadlineInPulse hf
    · exact .deadlineInStream ho

/-- The form claims use. -/
theorem exec_effect_of {i : Instr} {s t : State} (h : exec i s = .next t) : ExecEffect s i t := by
  obtain ⟨u, hu, he⟩ := exec_effect i s
  rw [h] at hu
  injection hu with hu
  exact hu ▸ he

/-! ### The ports answer next states -/

theorem exec_next (i : Instr) (s : State) : ∃ t, exec i s = .next t :=
  let ⟨t, h, _⟩ := exec_effect i s
  ⟨t, h⟩

theorem presentTimer_next (c : BitVec 1) (b : Bool) (s : State) : ∃ t, presentTimer c b s = .next t := by
  unfold presentTimer
  split
  · exact exec_next _ _
  · exact ⟨_, rfl⟩

theorem presentLine_next (e : Option LineWord) (s : State) : ∃ t, presentLine e s = .next t := by
  unfold presentLine
  split
  · exact ⟨_, rfl⟩
  · split
    · exact exec_next _ _
    · exact ⟨_, rfl⟩

theorem hostWrite_next (n : Nat) (v : Word) (s : State) : ∃ t, hostWrite n v s = .next t := by
  unfold hostWrite
  split
  · unfold execCmd
    split
    · exact exec_next _ _
    · exact ⟨_, rfl⟩
  · exact ⟨_, rfl⟩
  · exact ⟨_, rfl⟩

theorem presentWrite_next (x : Option (Nat × Word)) (s : State) : ∃ t, presentWrite x s = .next t := by
  unfold presentWrite
  split
  · exact ⟨_, rfl⟩
  · exact hostWrite_next _ _ _

/-- One step's input is a reset, or four presentations in the order of R161. -/
theorem takeInput_cases (inp : StepInput) (s : State) :
    (inp.reset = true ∧ takeInput inp s = .next (applyReset (answerRead inp.hostRead s))) ∨
    (inp.reset = false ∧ ∃ s1 s2 s3 t,
      presentTimer 1 (deadlinePresent inp s) (answerRead inp.hostRead s) = .next s1 ∧
      presentLine inp.lineEvent s1 = .next s2 ∧
      presentTimer 0 (holdPresent inp s) s2 = .next s3 ∧
      presentWrite inp.hostWrite s3 = .next t ∧
      takeInput inp s = .next t) := by
  cases hr : inp.reset
  · right
    obtain ⟨s1, h1⟩ := presentTimer_next 1 (deadlinePresent inp s) (answerRead inp.hostRead s)
    obtain ⟨s2, h2⟩ := presentLine_next inp.lineEvent s1
    obtain ⟨s3, h3⟩ := presentTimer_next 0 (holdPresent inp s) s2
    obtain ⟨t, h4⟩ := presentWrite_next inp.hostWrite s3
    refine ⟨rfl, s1, s2, s3, t, h1, h2, h3, h4, ?_⟩
    simp only [takeInput, hr, h1, h2, h3, h4, andThen_next, Bool.false_eq_true, if_false]
  · left
    exact ⟨rfl, by simp [takeInput, hr]⟩

end Sys2Proof.Machine
end

