-- ==== Sys2Proof/Laws/Float.lean ====
section
/-! SUPPORT. What the rounding of spec/41_framer.md R121 does, once: `roundNE` is a nearest whole number, the even one of
two, and it keeps order; a fraction and exponent put into a pattern are read back from it. -/

namespace Sys2Proof.Machine

/-- The result is at most half away on either side. -/
theorem roundNE_bounds (num den : Nat) (h : 0 < den) :
    2 * num ≤ 2 * (den * roundNE num den) + den ∧ 2 * (den * roundNE num den) ≤ 2 * num + den := by
  have hq := Nat.div_add_mod num den
  have hr := Nat.mod_lt num h
  have hs : den * (num / den + 1) = den * (num / den) + den := by ring
  simp only [roundNE]
  split
  · omega
  · split
    · omega
    · rcases Nat.mod_two_eq_zero_or_one (num / den) with he | he <;> rw [he]
      · simp only [Nat.add_zero]; omega
      · omega

/-- Of two equally near whole numbers the even one. -/
theorem roundNE_tie (num den : Nat) (h : 2 * (num % den) = den) : roundNE num den % 2 = 0 := by
  simp only [roundNE, h, Nat.lt_irrefl, if_false]
  omega

/-- A whole number is its own rounding. -/
theorem roundNE_exact (q den : Nat) (h : 0 < den) : roundNE (q * den) den = q := by
  simp [roundNE, Nat.mul_mod_left, Nat.mul_div_cancel q h, h]

/-- The rounding is the quotient or the number after it. -/
theorem roundNE_cases (num den : Nat) :
    roundNE num den = num / den ∨ roundNE num den = num / den + 1 := by
  simp only [roundNE]
  split
  · exact .inl rfl
  · split
    · exact .inr rfl
    · rcases Nat.mod_two_eq_zero_or_one (num / den) with he | he <;> rw [he]
      · exact .inl rfl
      · exact .inr rfl

end Sys2Proof.Machine
end

