-- ==== Sys2Proof/Laws/PerInstr.lean ====
section
/-! SUPPORT. The statements made of every instruction as syntax, one lemma per constructor: the encoder never makes a
reserved encoding, and sets every ignored bit to zero (spec/30_encoding.md R70), whatever the operands. -/

namespace Sys2Proof.Laws.EncodeWf

/-- The word of the instruction is no reserved encoding, and it is its own canonical form. -/
def Statement (i : Instr) : Prop :=
  (encodeWord i).wellFormed = true ∧ (encodeWord i).canonical = encodeWord i

theorem nop : Statement .nop := ⟨by decide, by decide⟩
theorem read : Statement .read := ⟨by decide, by decide⟩
theorem readEnv : Statement .readEnv := ⟨by decide, by decide⟩
theorem clear : Statement .clear := ⟨by decide, by decide⟩
theorem pack : Statement .pack := ⟨by decide, by decide⟩
theorem validate : Statement .validate := ⟨by decide, by decide⟩
theorem assemble : Statement .assemble := ⟨by decide, by decide⟩
theorem decode : Statement .decode := ⟨by decide, by decide⟩
theorem altScale : Statement .altScale := ⟨by decide, by decide⟩
theorem endOfStream : Statement .endOfStream := ⟨by decide, by decide⟩
theorem holdDone : Statement .holdDone := ⟨by decide, by decide⟩
theorem deadline : Statement .deadline := ⟨by decide, by decide⟩

theorem pushBit (arg : Byte) : Statement (.pushBit arg) := by
  have h : ∀ a : Byte, (encodeWord (.pushBit a)).wellFormed = true ∧
      (encodeWord (.pushBit a)).canonical = encodeWord (.pushBit a) := by decide
  exact h arg

/-- KIND of a line-event word is what the encoder put there. -/
theorem lineWord_kind (p : BitVec 64) (d : BitVec 1) (k : BitVec 2) : (lineWord p d k).extractLsb' 0 2 = k := by
  simp only [lineWord]
  exact BitVec.extractLsb'_append_eq_right

/-- A mask acts on a line-event word field by field. -/
theorem lineWord_and (p mp : BitVec 64) (d md : BitVec 1) (k mk : BitVec 2) :
    lineWord p d k &&& lineWord mp md mk = lineWord (p &&& mp) (d &&& md) (k &&& mk) := by
  have h1 : (p ++ (0 : BitVec 1)) &&& (mp ++ (0 : BitVec 1)) = (p &&& mp) ++ (0 : BitVec 1) :=
    BitVec.and_append
  have h2 : (p ++ (0 : BitVec 1) ++ d) &&& (mp ++ (0 : BitVec 1) ++ md) =
      (p &&& mp) ++ (0 : BitVec 1) ++ (d &&& md) := BitVec.and_append.trans (by rw [h1])
  exact (@BitVec.and_append 66 2 _ _ _ _).trans (by rw [h2]; rfl)

theorem edge (dir : EdgeDir) (ts : Nanos) : Statement (.edge dir ts) := by
  have hm : (0xFFFFFFFFFFFFFFFF7 : LineWord) = lineWord (BitVec.allOnes 64) (BitVec.allOnes 1) 3 := by decide
  constructor
  · simp [encodeWord, PortWord.wellFormed, kindDefined, lineWord_kind]
  · simp only [encodeWord, PortWord.canonical, lineWord_kind]
    refine congrArg PortWord.line ?_
    change lineWord ts dir.bit 0 &&& 0xFFFFFFFFFFFFFFFF7 = _
    rw [hm, lineWord_and, BitVec.and_allOnes, BitVec.and_allOnes]
    rfl

theorem lineError (code : Word) : Statement (.lineError code) := by
  have hm : (0x00000000FFFFFFFF3 : LineWord) = lineWord ((BitVec.allOnes 32).setWidth 64) 0 3 := by decide
  constructor
  · simp [encodeWord, PortWord.wellFormed, kindDefined, lineWord_kind]
  · simp only [encodeWord, PortWord.canonical, lineWord_kind]
    refine congrArg PortWord.line ?_
    change lineWord (code.setWidth 64) 0 2 &&& 0x00000000FFFFFFFF3 = _
    rw [hm, lineWord_and, ← BitVec.setWidth_and, BitVec.and_allOnes]
    rfl

end Sys2Proof.Laws.EncodeWf
end

