-- ==== Sys2Proof/Machine/Trace.lean ====
section
/-! DEFINITION. The trace notation, this block's assembly language (spec/30_encoding.md R73, R74): each line is one
`StepInput`. A line of the untimed view names its timer events; `timedAt` turns a line into one of the timed view. -/

namespace Sys2Proof.Machine.Trace

/-- `a + b` (R73): the inputs of two lines presented in the same step. What `a` presents on a port wins over `b`. -/
def both (a b : StepInput) : StepInput where
  now := a.now
  reset := a.reset || b.reset
  timers :=
    match a.timers, b.timers with
    | .timed, _ => .timed
    | _, .timed => .timed
    | .untimed d h, .untimed d' h' => .untimed (d || d') (h || h')
  lineEvent := a.lineEvent.or b.lineEvent
  hostWrite := a.hostWrite.or b.hostWrite
  hostRead := a.hostRead.or b.hostRead

/-- `@n:` (spec/95_test_vectors.md V8): the line in a step of the timed view whose NOW is `n`. -/
def timedAt (n : Nanos) (a : StepInput) : StepInput := { a with now := n, timers := .timed }

/-- A line that presents nothing. -/
def quiet : StepInput := quietInput 0

/-- A command, a line event or a timer event by its instruction (R73): `NOP`, `READ`, ..., `EDGE f @t`, `HOLD_DONE`. -/
def one (i : Instr) : StepInput := presentWord 0 (encodeWord i)

/-- `CMDW w`: the raw word written to CMD. -/
def cmdw (w : Word) : StepInput := presentWord 0 (.cmd w)

/-- `WR i, v`. -/
def wr (i : Nat) (v : Word) : StepInput := { quiet with hostWrite := some (i, v) }

/-- `RD i`. -/
def rd (i : Nat) : StepInput := { quiet with hostRead := some i }

/-- `RESET`. -/
def reset : StepInput := { quiet with reset := true }

/-- `PUSHBITS b0 ... bk` (R74). -/
def pushBits (bs : List Byte) : List StepInput := bs.map fun b => one (.pushBit b)

/-- `LOADBITS b0 ... bk` (R74). -/
def loadBits (bs : List Byte) : List StepInput := one .clear :: pushBits bs

/-- `PAIR @ta @tb` (R74). -/
def pair (ta tb : Nanos) : List StepInput := [one (.edge .rising ta), one (.edge .falling tb)]

/-- `ACK @t` (R74). -/
def ack (t : Nanos) : StepInput := one (.edge .falling t)

/-- The pairs of `WAVE` (R74) from the end `t` of what came before: each starts 1000 ns later and lasts its interval. -/
def wavePairs (t : Nanos) : List Nanos → List StepInput
  | [] => []
  | d :: ds => pair (t + 1000) (t + 1000 + d) ++ wavePairs (t + 1000 + d) ds

/-- `WAVE t0, d0 d1 ...` (R74). -/
def wave (t0 : Nanos) (ds : List Nanos) : List StepInput := ack t0 :: wavePairs t0 ds

end Sys2Proof.Machine.Trace
end

