-- ==== Sys2Proof/Tests/Slice0.lean ====
section
/-! SUPPORT. Tests: the refused words, the decoding of words written out from the spec's encodings, one step of every
instruction with the register values of spec/95_test_vectors.md, and a witness for every statement with hypotheses. -/

namespace Sys2Proof.Tests

open Sys2Proof.Machine

/-! ### Small states and the shape of a test -/

/-- Reset with DEADLINE_RESET_NS = 0 and T_HOLD_NS = 2000000, as the vectors have it. -/
def s0 : State := State.resetWith ⟨.binary32, 2000000, 0⟩
def s0d : State := State.resetWith ⟨.binary64, 2000000, 0⟩

/-- The start states of vector V7. -/
def sPulse : State := { s0 with fsm := .startPulseSent, line := .outLow }
def sAck : State := { s0 with fsm := .awaitingAck, line := .edgeIn }
def sBitA : State := { s0 with fsm := .collectingBits, line := .edgeIn }
def sBitB : State := { sBitA with phase := .B, tsA := 1000 }
def sDone : State := { s0 with fsm := .complete, line := .edgeIn, bitcnt := 40 }
def sFault : State :=
  { s0 with fsm := .faulted, line := .edgeIn, fltV := true, fltKind := .protocol, fltClass := .sensor }

/-- The eight elements of a byte, most significant first. -/
def elems (b : Byte) : Vector Byte 8 := Vector.ofFn fun j => if b.getLsbD (7 - j.val) then 1 else 0

/-- The 40 elements of a frame. -/
def bitsOf (a b c d e : Byte) : Vector Byte 40 := elems a ++ elems b ++ elems c ++ elems d ++ elems e

/-- A state with the 40 elements of a frame loaded (LOADBITS), with each format. -/
def loaded (a b c d e : Byte) : State := { s0 with bitbuf := bitsOf a b c d e, bitcnt := 40 }

/-- A state with a valid frame packed and checked. -/
def checked (p : State) (a b c d e : Byte) : State :=
  { p with bitcnt := 40, frame := #v[a, b, c, d, e], frameV := true, chkV := true }

/-- The outcome is a next state with this property. -/
def after (o : Host.Outcome State Fault Refusal) (p : State → Bool) : Bool :=
  match o with
  | .next t => p t
  | .fault _ => false
  | .refused _ => false

/-- These registers read so. -/
def shows (l : List (Nat × Word)) (s : State) : Bool := l.all fun x => hostRead x.1 s == x.2

/-! ### Refused words, one per check of WellFormed -/

theorem test_reserved_bits_low_refused :
    reservedBitsZero 0x00000011 = false ∧ decodeWord (.cmd 0x00000011) = .error .reservedBits := by decide
theorem test_reserved_bits_high_refused :
    reservedBitsZero 0x00010001 = false ∧ decodeWord (.cmd 0x00010001) = .error .reservedBits := by decide
theorem test_reserved_op_refused :
    opDefined 0x0000000A = false ∧ decodeWord (.cmd 0x0000000A) = .error .reservedOp := by decide
theorem test_reserved_op_last_refused :
    opDefined 0x0000000F = false ∧ decodeWord (.cmd 0x0000000F) = .error .reservedOp := by decide
theorem test_reserved_kind_refused :
    kindDefined 0x3 = false ∧ decodeWord (.line 0x3) = .error .reservedKind := by decide

/-! ### Decoding: the words of spec/30_encoding.md R64 to R66 and of the programs P1, P4, P6 -/

theorem test_decode_nop : decodeWord (.cmd 0x00000000) = .ok .nop := by decide
theorem test_decode_read : decodeWord (.cmd 0x00000001) = .ok .read := by decide
theorem test_decode_readenv : decodeWord (.cmd 0x00000002) = .ok .readEnv := by decide
theorem test_decode_clear : decodeWord (.cmd 0x00000003) = .ok .clear := by decide
theorem test_decode_pushbit : decodeWord (.cmd 0x00000204) = .ok (.pushBit 2) := by decide
theorem test_decode_pack : decodeWord (.cmd 0x00000005) = .ok .pack := by decide
theorem test_decode_validate : decodeWord (.cmd 0x00000006) = .ok .validate := by decide
theorem test_decode_assemble : decodeWord (.cmd 0x00000007) = .ok .assemble := by decide
theorem test_decode_decode : decodeWord (.cmd 0x00000008) = .ok .decode := by decide
theorem test_decode_altscale : decodeWord (.cmd 0x00000009) = .ok .altScale := by decide
/-- ARG is ignored by every command but PUSHBIT (R63). -/
theorem test_decode_read_ignores_arg : decodeWord (.cmd 0x0000AB01) = .ok .read := by decide
theorem test_decode_edge_falling :
    decodeWord (.line 0x0000000000200B200) = .ok (.edge .falling 2100000) := by decide
theorem test_decode_edge_rising :
    decodeWord (.line 0x00000000001F47D04) = .ok (.edge .rising 2050000) := by decide
theorem test_decode_end : decodeWord (.line 0x00000000000000001) = .ok .endOfStream := by decide
theorem test_decode_error : decodeWord (.line 0x00000000000000132) = .ok (.lineError 0x13) := by decide
theorem test_decode_hold_done : decodeWord (.timer 0) = .ok .holdDone := by decide
theorem test_decode_deadline : decodeWord (.timer 1) = .ok .deadline := by decide

/-- The host's numbering of the table: 32 bits for format H, 72 for format L, 8 for format T. -/
theorem test_table_words :
    decodeTableWord 32 0x00000204 = some (.pushBit 2) ∧ decodeTableWord 32 0x0000000A = none ∧
    decodeTableWord 72 0x3E84 = some (.edge .rising 1000) ∧ decodeTableWord 72 1 = some .endOfStream ∧
    decodeTableWord 72 0x132 = some (.lineError 0x13) ∧ decodeTableWord 72 3 = none ∧
    decodeTableWord 8 0 = some .holdDone ∧ decodeTableWord 8 1 = some .deadline := by decide

/-- The word placed is the word run by the very next step. -/
theorem test_fetch_word :
    after (step (s0.withFetchWord 32 0x00000002)) (shows [(1, 0x00410009)]) = true ∧
    after (step (sAck.withFetchWord 72 0x641)) (shows [(1, 0x00020095), (2, 0x002)]) = true ∧
    after (step (sPulse.withFetchWord 8 0)) (shows [(1, 0x0002000A)]) = true := by decide

/-! ### One step of each instruction -/

/-- V4: NOP after a refusal. -/
theorem test_nop : after (exec .nop { s0 with rej := true }) (shows [(1, 0)]) = true := by decide
/-- V7. -/
theorem test_nop_in_flight : after (exec .nop sBitB) (shows [(1, 0x0006000B)]) = true := by decide
/-- P4: READ from Faulted at NOW = 5000000. -/
theorem test_read_from_faulted :
    after (exec .read { sFault with now := 5000000 })
      (fun t => shows [(1, 0x00010009), (2, 0)] t && t.t0 == 5000000) = true := by decide
/-- V7. -/
theorem test_read_refused : after (exec .read sAck) (shows [(1, 0x0022000A)]) = true := by decide
/-- P1. -/
theorem test_readenv :
    after (exec .readEnv { s0 with now := 1000 }) (fun t => shows [(1, 0x00410009)] t && t.t0 == 1000) = true := by
  decide
theorem test_readenv_refused : after (exec .readEnv sPulse) (shows [(1, 0x00210009)]) = true := by decide
/-- V9: CLEAR keeps LINE and DEADLINE. -/
theorem test_clear :
    after (exec .clear { sDone with deadline := 1234 }) (shows [(1, 0x00020000), (4, 1234)]) = true := by decide
/-- P7: an element that is not a bit is stored as it is. -/
theorem test_pushbit : after (exec (.pushBit 2) s0) (shows [(1, 0x00000100), (16, 0x02000000)]) = true := by decide
/-- S4: BITCNT saturates at 255. -/
theorem test_pushbit_saturates :
    after (exec (.pushBit 1) { s0 with bitcnt := 255 }) (shows [(1, 0x0000FF00), (25, 0)]) = true := by decide
/-- P2: the frame 03 E8 00 FA E5. -/
theorem test_pack :
    after (exec .pack (loaded 0x03 0xE8 0x00 0xFA 0xE5))
      (shows [(1, 0x00082800), (5, 0x03E800FA), (6, 0xE5)]) = true := by decide
/-- S4, n = 39. -/
theorem test_pack_short :
    after (exec .pack { s0 with bitcnt := 39 }) (shows [(1, 0x00002780), (2, 0x104), (5, 0)]) = true := by decide
/-- S5: the sum 257. -/
theorem test_validate_wraps :
    after (exec .validate { s0 with bitcnt := 40, frameV := true, frame := #v[0xFF, 0x02, 0, 0, 0x01] })
      (shows [(1, 0x00182800), (2, 0)]) = true := by decide
theorem test_validate_fails :
    after (exec .validate { s0 with bitcnt := 40, frameV := true, frame := #v[0xFF, 0x02, 0, 0, 0x00] })
      (shows [(1, 0x00082880), (2, 0x114)]) = true := by decide
/-- S1 in binary32. -/
theorem test_assemble :
    after (exec .assemble (checked s0 0x02 0x8C 0x01 0x5F 0xEE))
      (shows [(1, 0x00182820), (7, 0x028C015F), (8, 0x42826666), (9, 0), (10, 0x420C6666)]) = true := by decide
/-- V5, raw 32769 in binary64: no sign bit. -/
theorem test_assemble_unsigned :
    after (exec .assemble (checked s0d 0x80 0x01 0x80 0x01 0x02))
      (shows [(10, 0xCCCCCCCD), (11, 0x40A999CC)]) = true := by decide +kernel
/-- S1. -/
theorem test_decode :
    after (exec .decode (loaded 0x02 0x8C 0x01 0x5F 0xEE))
      (shows [(1, 0x00182820), (2, 0), (5, 0x028C015F), (6, 0xEE), (7, 0x028C015F)]) = true := by decide
/-- S2, p = 20. -/
theorem test_decode_bad_checksum :
    after (exec .decode (loaded 0x00 0x00 0x08 0x00 0x00))
      (shows [(1, 0x00082880), (2, 0x114), (5, 0x00000800), (7, 0)]) = true := by decide
/-- V6, raw 18 in binary32: two roundings and not one. -/
theorem test_altscale_unfused :
    after (exec .altScale { s0 with rdy := true, humF := 0x3DCCCCCD, tempF := 0x3FE66666 })
      (shows [(12, 0x3DCCCCCD), (14, 0x420CF5C2), (15, 0)]) = true := by decide
/-- V6, raw 36 in binary64. -/
theorem test_altscale_binary64 :
    after (exec .altScale { s0d with rdy := true, tempF := 0x400CCCCCCCCCCCCD })
      (shows [(14, 0xA3D70A3E), (15, 0x40433D70)]) = true := by decide +kernel
/-- V1: the boundary interval, across the wrap of the timestamp. -/
theorem test_edge_threshold :
    after (exec (.edge .falling 39999) { sBitB with tsA := 0xFFFFFFFFFFFFFFFF })
      (shows [(1, 0x0002010B), (16, 0x01000000)]) = true := by decide
/-- P1: the 81st edge of a READENV. -/
theorem test_edge_completes :
    after (exec (.edge .falling 3928000)
      { loaded 0x02 0x8C 0x01 0x5F 0xEE with
        fsm := .collectingBits, line := .edgeIn, opsel := .readEnv, bitcnt := 39, phase := .B, tsA := 3902000 })
      (shows [(1, 0x005A2834), (2, 0), (5, 0x028C015F), (7, 0x028C015F)]) = true := by decide
/-- V7, END in Collecting, B. -/
theorem test_end : after (exec .endOfStream sBitB) (shows [(1, 0x00060095), (2, 0x002)]) = true := by decide
/-- V7, ERROR in StartPulseSent and in Faulted. -/
theorem test_error :
    after (exec (.lineError 0xE5) sPulse) (shows [(1, 0x00000095), (2, 0x001), (3, 0xE5)]) = true := by decide
theorem test_error_dropped : exec (.lineError 0xE5) sFault = .next sFault := rfl
/-- V7. -/
theorem test_hold_done : after (exec .holdDone sPulse) (shows [(1, 0x0002000A)]) = true := by decide
theorem test_hold_done_dropped : exec .holdDone sAck = .next sAck := rfl
/-- V7. -/
theorem test_deadline : after (exec .deadline sPulse) (shows [(1, 0x00000095), (2, 0x003)]) = true := by decide
theorem test_deadline_in_stream :
    after (exec .deadline sBitB) (shows [(1, 0x00060095), (2, 0x003)]) = true := by decide

/-! ### Steps with several inputs (V8, V9, V10) -/

/-- V8: the 81st edge together with the deadline: the deadline is first and the edge is dropped. -/
theorem test_step_deadline_before_edge :
    after (step { sBitB with
      deadline := 10000000, bitcnt := 39
      inputs := [Trace.timedAt 10000000 (Trace.one (.edge .falling 10000000))] })
      (shows [(1, 0x00062795), (2, 0x003)]) = true := by decide
/-- V8: an edge in the start pulse is dropped, then the hold ends. -/
theorem test_step_edge_before_hold :
    after (step { sPulse with
      deadline := 1000000000, inputs := [Trace.timedAt 2000000 (Trace.one (.edge .falling 2000000))] })
      (shows [(1, 0x0002000A)]) = true := by decide
/-- V8: END faults the read and the write of the same step is then accepted. -/
theorem test_step_write_last :
    after (step { sAck with inputs := [Trace.both (Trace.one .endOfStream) (Trace.wr 4 77)] })
      (shows [(1, 0x00020095), (2, 0x002), (4, 77)]) = true := by decide
/-- V8, V9: reset only. -/
theorem test_step_reset_wins :
    after (step { sBitB with
      inputs := [Trace.both Trace.reset (Trace.both (Trace.one (.edge .rising 1)) (Trace.one .read))] })
      (shows [(1, 0), (2, 0)]) = true := by decide
/-- V10: a host read shows the state before the step. -/
theorem test_step_read_before_write :
    after (step { s0 with inputs := [Trace.both (Trace.rd 4) (Trace.wr 4 0xFFFFFFFF)] })
      (fun t => t.readData == some 0 && hostRead 4 t == 0xFFFFFFFF) = true := by decide

/-! ### Witnesses: a concrete state and operands for the hypotheses of each statement -/

theorem witness_DecodedWordReencodesCanonically :
    decodeWord (.cmd 0x0000FF02) = .ok .readEnv ∧ decodeWord (.line 0xFFFFFFFFFFFFFFFFE) = .ok (.lineError 0xFFFFFFFF) ∧
    decodeWord (.timer 1) = .ok .deadline := by decide

theorem witness_CommandWordsDecodeByMask :
    (∀ op : Fin 10, (BitVec.ofNat 32 (0xFF00 + op.val)) &&& (0xFFFF00FF : Word) = BitVec.ofNat 32 op.val) ∧
    9 < ((0x0000FF0A : Word) &&& 0xFFFF00FF).toNat ∧ 9 < ((0x00000010 : Word) &&& 0xFFFF00FF).toNat ∧
    9 < ((0x80000009 : Word) &&& 0xFFFF00FF).toNat := by decide

theorem witness_LineWordsDecodeByKind :
    (0xFFFFFFFFFFFFFFFFC : LineWord).toNat % 4 = 0 ∧ (0xFFFFFFFFFFFFFFFFD : LineWord).toNat % 4 = 1 ∧
    (0xFFFFFFFFFFFFFFFFE : LineWord).toNat % 4 = 2 ∧ (0xFFFFFFFFFFFFFFFFF : LineWord).toNat % 4 = 3 := by decide

theorem witness_StepRunsTheDecodedWord :
    decodeWord (.cmd 0x00000008) = .ok .decode ∧ decodeWord (.line 0x3E84) = .ok (.edge .rising 1000) ∧
    decodeWord (.timer 0) = .ok .holdDone := by decide

/-- A step of the timed view with everything in it. -/
def fullInput : StepInput := ⟨2000000, false, .timed, some 0x1, some (0, 0x1), some 1⟩

/-- A quiet step with a reserved line word and a host read outside the map. -/
def emptyInput : StepInput := ⟨0, false, .untimed false false, some 0x3, none, some 26⟩

theorem witness_StepProcessesInputsInOrder :
    ({ sPulse with inputs := [fullInput] } : State).inputs = fullInput :: [] ∧ fullInput.reset = false ∧
    deadlinePresent fullInput sPulse = true ∧ holdPresent fullInput sPulse = true ∧
    fullInput.lineEvent = some 0x1 ∧ decodeWord (.line 0x1) = .ok .endOfStream ∧ fullInput.hostWrite = some (0, 0x1) ∧
    deadlinePresent emptyInput sPulse = false ∧ holdPresent emptyInput sPulse = false ∧
    emptyInput.lineEvent = some 0x3 ∧ decodeWord (.line 0x3) = .error .reservedKind ∧ emptyInput.hostWrite = none ∧
    Trace.reset.reset = true := by decide

theorem witness_NoInputNoChange : sBitB.inputs = [] := by decide

theorem witness_HostWriteReachesCmdAndDeadline :
    decodeWord (.cmd 0x00000009) = .ok .altScale ∧ decodeWord (.cmd 0x0000000A) = .error .reservedOp ∧
    sPulse.busy = true ∧ sBitB.busy = true ∧ s0.busy = false ∧ sFault.busy = false ∧ (25 : Nat) ≠ 0 ∧ (25 : Nat) ≠ 4 := by
  decide

theorem witness_HostReadHasNoSideEffect : ((0 : Nat) = 0 ∨ 26 ≤ 0) ∧ ((26 : Nat) = 0 ∨ 26 ≤ 26) := by decide

theorem witness_FaultRegisterReadsTheSixFaults :
    s0.fltV = false ∧ sFault.fltV = true ∧ sFault.fltKind = .protocol ∧ sFault.fltSub = 0 ∧ sFault.fltClass = .sensor ∧
    after (exec (.edge .rising 0) sAck) (fun t => t.fltV && t.fltKind == .protocol && t.fltSub == 1 && t.fltClass == .sensor) = true ∧
    after (exec (.lineError 7) sAck) (fun t => t.fltV && t.fltKind == .hardware && t.fltSub == 0 && t.fltClass == .sensor) = true ∧
    after (exec .deadline sAck) (fun t => t.fltV && t.fltKind == .timeout && t.fltSub == 0 && t.fltClass == .sensor) = true ∧
    after (exec .pack s0) (fun t => t.fltV && t.fltKind == .decode && t.fltSub == 0 && t.fltClass == .conversion) = true ∧
    after (exec .validate { s0 with frameV := true, frame := #v[1, 0, 0, 0, 0] })
      (fun t => t.fltV && t.fltKind == .decode && t.fltSub == 1 && t.fltClass == .conversion) = true := by decide

theorem witness_DataRegisterViews :
    (14, s0.altTempF) ∈ [(8, s0.humF), (10, s0.tempF), (12, s0.altHumF), (14, s0.altTempF)] ∧
    s0.params.floatFmt = .binary32 ∧ s0d.params.floatFmt = .binary64 ∧
    ((39 : Fin 40).val = 4 * (9 : Fin 10).val + 3 ∧ (36 : Fin 40).val = 4 * (9 : Fin 10).val ∧
      (37 : Fin 40).val = 4 * (9 : Fin 10).val + 1 ∧ (38 : Fin 40).val = 4 * (9 : Fin 10).val + 2) := by decide

theorem witness_TimersFireByElapsedTime : (Trace.timedAt 2000000 Trace.quiet).timers = .timed := by decide

theorem witness_TimedViewIsAnUntimedView :
    49 + 50 = ((49 : Nanos).toNat + (2 ^ 64 - ({ sPulse with t0 := 0xFFFFFFFFFFFFFFCE } : State).t0.toNat)) % 2 ^ 64 := by
  decide

theorem witness_ReadEndsByTheDeadline :
    fullInput.timers = .timed ∧ fullInput.reset = false ∧ ({ fullInput with hostWrite := none } : StepInput).hostWrite = none ∧
    sPulse.busy = true ∧ sBitB.busy = true ∧
    sPulse.deadline.toNat ≤ (fullInput.now.toNat + (2 ^ 64 - sPulse.t0.toNat)) % 2 ^ 64 ∧
    ({ sBitB with deadline := 2000000 } : State).deadline.toNat ≤
      (fullInput.now.toNat + (2 ^ 64 - sBitB.t0.toNat)) % 2 ^ 64 := by decide

/-- Busy and not busy: READ, READENV, CLEAR, PUSHBIT, PACK, DECODE, the DEADLINE write (R130). -/
theorem witness_busy_guard :
    sPulse.busy = true ∧ sAck.busy = true ∧ sBitA.busy = true ∧ s0.busy = false ∧ sDone.busy = false ∧
    sFault.busy = false := by decide
theorem witness_ReadStartsARead : sBitB.busy = true ∧ sFault.busy = false := by decide
theorem witness_ReadEnvStartsARead : sBitB.busy = true ∧ sDone.busy = false := by decide
theorem witness_ClearIsResetButLineDeadlineT0 : sPulse.busy = true ∧ sDone.busy = false := by decide

theorem witness_HoldDoneOpensTheStream : sPulse.fsm = .startPulseSent ∧ sAck.fsm ≠ .startPulseSent := by decide

theorem witness_UnawaitedEventsAreDropped :
    sPulse.fsm ≠ .awaitingAck ∧ sPulse.fsm ≠ .collectingBits ∧ sDone.busy = false := by decide

theorem witness_AcknowledgmentMustBeFalling : sAck.fsm = .awaitingAck := by decide

theorem witness_PairOfEdgesBecomesOneBit :
    sBitA.fsm = .collectingBits ∧ sBitA.phase = .A ∧ sBitB.fsm = .collectingBits ∧ sBitB.phase = .B ∧
    ({ sBitB with bitcnt := 38 } : State).bitcnt.toNat < 39 := by decide

/-- A read one edge short of its end, of each START. -/
def sLast (op : OpSel) : State := { sBitB with bitcnt := 39, opsel := op }

theorem witness_FortiethBitCompletesTheRead :
    ∀ op, op = OpSel.read ∨ op = OpSel.readEnv →
      (sLast op).fsm = .collectingBits ∧ (sLast op).phase = .B ∧ (sLast op).bitcnt = 39 ∧ (sLast op).opsel = op := by
  rintro op (rfl | rfl) <;> decide

/-- V1's rows 39999 and 40000 across the wrap. -/
theorem witness_BitOfIsTheThreshold :
    ((39998 : Nanos).toNat + (2 ^ 64 - (0xFFFFFFFFFFFFFFFF : Nanos).toNat)) % 2 ^ 64 < 40000 ∧
    40000 ≤ ((39999 : Nanos).toNat + (2 ^ 64 - (0xFFFFFFFFFFFFFFFF : Nanos).toNat)) % 2 ^ 64 := by decide

theorem witness_EndOfStreamIsBadRead :
    (sAck.fsm = .awaitingAck ∨ sAck.fsm = .collectingBits) ∧ (sBitB.fsm = .awaitingAck ∨ sBitB.fsm = .collectingBits) ∧
    ¬(sPulse.fsm = .awaitingAck ∨ sPulse.fsm = .collectingBits) := by decide

theorem witness_LineErrorIsAHardwareFault :
    sPulse.fsm = .startPulseSent ∧ (sBitA.fsm = .awaitingAck ∨ sBitA.fsm = .collectingBits) ∧ s0.busy = false := by decide
theorem witness_DeadlineIsATimeoutFault :
    sPulse.fsm = .startPulseSent ∧ (sAck.fsm = .awaitingAck ∨ sAck.fsm = .collectingBits) ∧ sDone.busy = false := by decide

/-- `n` rising edges at time 0. -/
def edges (n : Nat) : List (EdgeDir × Nanos) := List.replicate n (.rising, 0)

theorem witness_EdgesAreConsumedInPairs :
    sAck.fsm = .awaitingAck ∧ sAck.bitcnt = 0 ∧ sAck.phase = .A ∧ (edges 79).length ≤ 79 ∧
    (edges 79)[2 * (38 : Fin 40).val]? = some (.rising, 0) ∧ (edges 79)[2 * (38 : Fin 40).val + 1]? = some (.rising, 0) ∧
    (edges 79).length / 2 ≤ (39 : Fin 40).val := by decide

theorem witness_EightyOneEdgesCompleteARead :
    sAck.fsm = .awaitingAck ∧ sAck.bitcnt = 0 ∧ sAck.phase = .A ∧ sAck.opsel = .read ∧ (edges 80).length = 80 ∧
    (edges 80)[2 * (39 : Fin 40).val]? = some (.rising, 0) ∧
    (edges 80)[2 * (39 : Fin 40).val + 1]? = some (.rising, 0) := by decide

/-- 40 pairs of edges of one interval: `d` apart. -/
def pairs (d : Nanos) : List (EdgeDir × Nanos) := (List.replicate 40 [(EdgeDir.rising, 0), (EdgeDir.falling, d)]).flatten

/-- All zeros with the longest interval of a 0 (checksum right), all ones with the shortest of a 1 (checksum wrong). -/
theorem witness_ReadEnvDecodesTheFrameOnTheWire :
    s0.busy = false ∧ (pairs 39999).length = 80 ∧ (pairs 40000).length = 80 ∧
    (∀ (g : Fin 5) (j : Fin 8), ∃ x y, (pairs 39999)[2 * (8 * g.val + j.val)]? = some x ∧
      (pairs 39999)[2 * (8 * g.val + j.val) + 1]? = some y ∧
      ((y.2.toNat + (2 ^ 64 - x.2.toNat)) % 2 ^ 64 < 40000 ↔ ((0x00 : Byte)).getLsbD (7 - j.val) = false)) ∧
    (∀ (g : Fin 5) (j : Fin 8), ∃ x y, (pairs 40000)[2 * (8 * g.val + j.val)]? = some x ∧
      (pairs 40000)[2 * (8 * g.val + j.val) + 1]? = some y ∧
      ((y.2.toNat + (2 ^ 64 - x.2.toNat)) % 2 ^ 64 < 40000 ↔ ((0xFF : Byte)).getLsbD (7 - j.val) = false)) ∧
    0 = 0x00 + 0x00 + 0x00 + 0x00 ∧ 0 % 256 = (0x00 : Byte).toNat ∧
    1020 = 0xFF + 0xFF + 0xFF + 0xFF ∧ 1020 % 256 ≠ (0xFF : Byte).toNat := by
  refine ⟨by decide, by decide, by decide, ?_, ?_, by decide⟩ <;> intro g j
  · exact ⟨(.rising, 0), (.falling, 39999), by revert g j; decide, by revert g j; decide, by revert j; decide⟩
  · exact ⟨(.rising, 0), (.falling, 40000), by revert g j; decide, by revert g j; decide, by revert j; decide⟩

theorem witness_CompleteOnlyByTheFortiethBit :
    ∃ t : State, step { sLast .read with inputs := [Trace.one (.edge .falling 0)] } = .next t ∧
      (sLast .read).fsm ≠ .complete ∧ t.fsm = .complete := ⟨_, rfl, by decide, by decide⟩

theorem witness_OnlyStartAndClearLeaveATerminalState :
    (∃ t : State, exec .read s0 = .next t ∧ t.fsm = .startPulseSent ∧ s0.fsm ≠ .startPulseSent) ∧
    (∃ t : State, exec .clear sDone = .next t ∧ t.fsm = .idle ∧ sDone.fsm ≠ .idle ∧ sDone.done = true ∧ t.done = false) :=
  ⟨⟨_, rfl, by decide, by decide⟩, ⟨_, rfl, by decide, by decide, by decide, by decide⟩⟩

theorem witness_PackChecksTheLength :
    sBitA.busy = true ∧ s0.busy = false ∧ ({ s0 with bitcnt := 39 } : State).bitcnt ≠ 40 ∧
    ({ s0 with bitcnt := 41 } : State).bitcnt ≠ 40 ∧ sDone.busy = false ∧ sDone.bitcnt = 40 := by decide

theorem witness_PackIsMostSignificantBitFirst :
    (∀ k : Fin 40, (bitsOf 0x02 0x8C 0x01 0x5F 0xEE)[k] = 0 ∨ (bitsOf 0x02 0x8C 0x01 0x5F 0xEE)[k] = 1) ∧
    (39 : Fin 40).val = 8 * (4 : Fin 5).val + (7 : Fin 8).val ∧
    (0 : Fin 40).val = 8 * (0 : Fin 5).val + (0 : Fin 8).val := by decide

theorem witness_EveryFrameHasItsBits :
    ∀ (g : Fin 5) (j : Fin 8) (k : Fin 40), k.val = 8 * g.val + j.val →
      (bitsOf 0xFF 0x02 0x00 0x00 0x01)[k] =
        if ((#v[0xFF, 0x02, 0x00, 0x00, 0x01] : Vector Byte 5)[g]).getLsbD (7 - j.val) then 1 else 0 := by decide

/-- S5's rows FF 02 00 00 01 and FF 02 00 00 00. -/
theorem witness_ValidateComparesTheChecksum :
    (sBitA.busy = true ∨ sBitA.frameV = false) ∧ (s0.busy = true ∨ s0.frameV = false) ∧
    (checked s0 0xFF 0x02 0 0 0x01).busy = false ∧ (checked s0 0xFF 0x02 0 0 0x01).frameV = true ∧
    257 = 0xFF + 0x02 + 0 + 0 ∧ 257 % 256 = (0x01 : Byte).toNat ∧ 257 % 256 ≠ (0x00 : Byte).toNat := by decide

theorem witness_AssembleBuildsTheReading :
    (s0.busy = true ∨ s0.chkV = false) ∧ (checked s0 0xFF 0xFF 0xFF 0xFF 0xFC).busy = false ∧
    (checked s0 0xFF 0xFF 0xFF 0xFF 0xFC).chkV = true := by decide

theorem witness_DecodeIsTheThreeStages :
    sBitA.busy = true ∧ s0.busy = false ∧
    (∃ p : State, exec .pack s0 = .next p ∧ p.frameV = false) ∧
    (∃ p v : State, exec .pack (loaded 0 0 8 0 0) = .next p ∧ p.frameV = true ∧ exec .validate p = .next v ∧
      v.chkV = false) ∧
    (∃ p v : State, exec .pack (loaded 0 0 0 0 0) = .next p ∧ p.frameV = true ∧ exec .validate p = .next v ∧
      v.chkV = true) :=
  ⟨by decide, by decide, ⟨_, rfl, by decide⟩, ⟨_, _, rfl, by decide, rfl, by decide⟩,
    ⟨_, _, rfl, by decide, rfl, by decide⟩⟩

theorem witness_AltScaleIsUnfused :
    (s0.busy = true ∨ s0.rdy = false) ∧ ({ s0 with rdy := true } : State).busy = false ∧
    ({ s0 with rdy := true } : State).rdy = true := by decide

/-- A tie: half a unit lies as near to 0 as to the smallest positive value, and rounds to the even 0. -/
theorem witness_RoundingIsToTheNearestEven :
    0 < 2 ∧ (0 : BitVec 64) = roundFloat .binary32 false 1 2 ∧ isFinite .binary32 0 = true ∧
    isFinite .binary32 1 = true ∧
    (floatUnits .binary32 0 * (2 : Nat) - (1 : Nat)).natAbs = (floatUnits .binary32 1 * (2 : Nat) - (1 : Nat)).natAbs ∧
    floatUnits .binary32 1 ≠ floatUnits .binary32 0 := by decide

/-- 18/10 and 1.8 (S1's raw 18), both signs, and the largest finite value, which bounds every exact result here. -/
theorem witness_FloatOperationsRoundTheExactResult :
    isFinite .binary32 0x3FE66666 = true ∧ isFinite .binary32 0xBFE66666 = true ∧
    signBit .binary32 0x3FE66666 = false ∧ signBit .binary32 0xBFE66666 = true ∧
    floatUnits .binary32 0xBFE66666 ≠ 0 ∧ isFinite .binary32 0x7F7FFFFF = true ∧
    (floatUnits .binary32 0x3FE66666 * floatUnits .binary32 0x3FE66666).natAbs ≤
      (floatUnits .binary32 0x7F7FFFFF).natAbs * unitsPerOne .binary32 ∧
    isFinite .binary32 (fmul .binary32 0x3FE66666 0x3FE66666) = true := by decide +kernel

/-- V5, raw 65535 in both formats. -/
theorem witness_ReadingIsNearestToTheTenth :
    (0x45CCCC00 : BitVec 64) = fdiv .binary32 (u16ToF .binary32 65535) (fconst .binary32 10 1) ∧
    (0x40B9998000000000 : BitVec 64) = fdiv .binary64 (u16ToF .binary64 65535) (fconst .binary64 10 1) ∧
    isFinite .binary32 0x45CCCC01 = true := by decide +kernel

theorem witness_PushBitAppends :
    sBitB.busy = true ∧ s0.busy = false ∧ (39 : Fin 40).val = ({ s0 with bitcnt := 39 } : State).bitcnt.toNat ∧
    ¬(39 : Fin 40).val = ({ s0 with bitcnt := 40 } : State).bitcnt.toNat := by decide

theorem witness_CommandAcceptance :
    decodeWord (.cmd 0x00000011) = .error .reservedBits ∧
    (decodeWord (.cmd 0x00000001) = .ok .read ∧ Instr.read ≠ .nop ∧ sBitB.busy = true) ∧
    (decodeWord (.cmd 0x00000006) = .ok .validate ∧ s0.busy = false ∧ s0.frameV = false) ∧
    (decodeWord (.cmd 0x00000007) = .ok .assemble ∧ s0.busy = false ∧ s0.chkV = false) ∧
    (decodeWord (.cmd 0x00000009) = .ok .altScale ∧ s0.busy = false ∧ s0.rdy = false) ∧
    (decodeWord (.cmd 0x00000000) = .ok .nop ∧
      ¬(Instr.nop ≠ .nop ∧ sBitB.busy = true ∨ Instr.nop = .validate ∧ sBitB.frameV = false ∨
        Instr.nop = .assemble ∧ sBitB.chkV = false ∨ Instr.nop = .altScale ∧ sBitB.rdy = false)) ∧
    (decodeWord (.cmd 0x00000007) = .ok .assemble ∧
      ¬(Instr.assemble ≠ .nop ∧ (checked s0 0 0 0 0 0).busy = true ∨
        Instr.assemble = .validate ∧ (checked s0 0 0 0 0 0).frameV = false ∨
        Instr.assemble = .assemble ∧ (checked s0 0 0 0 0 0).chkV = false ∨
        Instr.assemble = .altScale ∧ (checked s0 0 0 0 0 0).rdy = false)) := by decide

theorem witness_BusyGuardProtectsTheRead : sBitB.busy = true := by decide

theorem witness_ConfigurationIsNotTheirsToWrite :
    (∃ t : State, exec .clear s0 = .next t ∧ Instr.clear ≠ .read ∧ Instr.clear ≠ .readEnv) ∧
    (∃ t : State, exec .endOfStream sAck = .next t) := ⟨⟨_, rfl, by decide, by decide⟩, ⟨_, rfl⟩⟩

/-- Each of the eight cases is met: kept, cleared, and the six faults. -/
theorem witness_FaultRecordIsSticky :
    (∃ t : State, exec .nop sFault = .next t ∧ t.record = sFault.record ∧ t.fltV = true) ∧
    (∃ t : State, exec .read sFault = .next t ∧ t.record = (false, .none, 0, .sensor, 0)) ∧
    (∃ t : State, exec (.lineError 7) sPulse = .next t ∧ t.record = (true, .hardware, 0, .sensor, 7)) ∧
    (∃ t : State, exec .endOfStream sBitB = .next t ∧ t.record = (true, .protocol, 0, .sensor, 0)) ∧
    (∃ t : State, exec (.edge .rising 0) sAck = .next t ∧ t.record = (true, .protocol, 1, .sensor, 0)) ∧
    (∃ t : State, exec .deadline sPulse = .next t ∧ t.record = (true, .timeout, 0, .sensor, 0)) ∧
    (∃ t : State, exec .pack { sFault with hwerr := 7 } = .next t ∧ t.record = (true, .decode, 0, .conversion, 0)) ∧
    (∃ t : State, exec (.edge .falling 40001) { sLast .readEnv with tsA := 0 } = .next t ∧
      t.record = (true, .decode, 1, .conversion, 0)) :=
  ⟨⟨_, rfl, rfl, rfl⟩, ⟨_, rfl, rfl⟩, ⟨_, rfl, rfl⟩, ⟨_, rfl, rfl⟩, ⟨_, rfl, rfl⟩, ⟨_, rfl, rfl⟩,
    ⟨_, rfl, by decide⟩, ⟨_, rfl, by decide⟩⟩

theorem witness_ResetValues : (25 : Nat) ≠ 4 ∧ hostRead 25 s0 = 0 := by decide

theorem witness_ResetWinsOverEverything :
    ({ sBitB with inputs := [Trace.reset] } : State).inputs = Trace.reset :: [] ∧ Trace.reset.reset = true := by decide

/-- A read in flight, one edge short of its end, meets the invariants, and its next step is a next state. -/
theorem witness_EveryStepKeepsTheInvariants :
    BlockInv { sLast .readEnv with inputs := [Trace.one (.edge .falling 0)] } ∧
    ∃ t : State, step { sLast .readEnv with inputs := [Trace.one (.edge .falling 0)] } = .next t := by
  refine ⟨?_, _, rfl⟩
  constructor
  case recorded => nofun
  all_goals decide

end Sys2Proof.Tests
end

section
/-! What one step is, an equation for each shape of the list of inputs, and the statement about the empty list. -/

namespace Sys2Proof.Proofs

open Sys2Proof.Machine

/-- The controller has no step of its own without an event (R7). -/
theorem step_of_inputs_nil {s : State} (h : s.inputs = []) : step s = .next s := by
  simp only [step, takeNext, h]

/-- The first input is presented with its NOW, on the state that has it taken off the list (R161). -/
theorem step_of_inputs_cons {s : State} {inp : StepInput} {rest : List StepInput} (h : s.inputs = inp :: rest) :
    step s = takeInput inp { s with inputs := rest, now := inp.now } := by
  simp only [step, takeNext, h]

/-- Settles O9: a step whose list of inputs is empty takes nothing off it and presents nothing. -/
theorem noInputNoChange : Obligations.NoInputNoChange := fun _ hnil => step_of_inputs_nil hnil

end Sys2Proof.Proofs
end

section
/-! What one presentation of a step can do, an inversion lemma per port (R60, R161): nothing, or the instruction the
presented word stands for; a host write may also be refused, or write DEADLINE. -/

namespace Sys2Proof.Proofs

open Sys2Proof.Machine

theorem presentTimer_cases {c : BitVec 1} {b : Bool} {s t : State} (h : presentTimer c b s = .next t) :
    t = s ∨ exec (decodeTimer c) s = .next t := by
  unfold presentTimer at h
  split at h
  · exact .inr h
  · cases h
    exact .inl rfl

theorem presentLine_cases {x : Option LineWord} {s t : State} (h : presentLine x s = .next t) :
    t = s ∨ ∃ e i, x = some e ∧ decodeWord (.line e) = .ok i ∧ exec i s = .next t := by
  unfold presentLine at h
  split at h
  case h_1 =>
    cases h
    exact .inl rfl
  case h_2 e =>
    split at h
    case h_1 i hi => exact .inr ⟨e, i, rfl, hi, h⟩
    case h_2 =>
      cases h
      exact .inl rfl

theorem presentWrite_cases {x : Option (Nat × Word)} {s t : State} (h : presentWrite x s = .next t) :
    t = s ∨ t = refuse s ∨ (∃ v, t = writeDeadline v s) ∨
      ∃ w i, x = some (0, w) ∧ decodeWord (.cmd w) = .ok i ∧ exec i s = .next t := by
  obtain _ | ⟨n, v⟩ := x
  · cases h
    exact .inl rfl
  · simp only [presentWrite, hostWrite, execCmd] at h
    split at h
    case h_1 =>
      split at h
      case h_1 i hi => exact .inr (.inr (.inr ⟨v, i, rfl, hi, h⟩))
      case h_2 =>
        cases h
        exact .inr (.inl rfl)
    case h_2 =>
      cases h
      exact .inr (.inr (.inl ⟨v, rfl⟩))
    case h_3 =>
      cases h
      exact .inl rfl

/-- The word on CMD stands for a command, never for an event (R60). -/
theorem not_isEvent_of_decodeWord_cmd {w : Word} {i : Instr} (h : decodeWord (.cmd w) = .ok i) :
    isEvent i = false := by
  simp only [decodeWord, decodeCmd] at h
  split at h
  case isTrue =>
    split at h <;> cases h <;> rfl
  case isFalse => cases h

end Sys2Proof.Proofs
end

section
/-! The pure functions of the framer and of the bit capture in the arithmetic of the natural numbers, which is how the
invariants and the statements speak of them. -/

namespace Sys2Proof.Proofs

open Sys2Proof.Machine

/-- The earlier part of a concatenation is the more significant one (R27, R47). -/
theorem toNat_append_eq_add {m n : Nat} (x : BitVec m) (y : BitVec n) :
    (x ++ y).toNat = x.toNat * 2 ^ n + y.toNat := by
  rw [BitVec.toNat_append, ← Nat.shiftLeft_add_eq_or_of_lt y.isLt, Nat.shiftLeft_eq]

/-- The checksum is the sum of the first four bytes modulo 256 (R113). -/
theorem checksum_toNat (fr : Vector Byte 5) :
    (checksum fr).toNat = (fr[0].toNat + fr[1].toNat + fr[2].toNat + fr[3].toNat) % 256 := by
  simp [checksum, BitVec.toNat_add]

theorem checksum_eq_iff (fr : Vector Byte 5) :
    checksum fr = fr[4] ↔
      (fr[0].toNat + fr[1].toNat + fr[2].toNat + fr[3].toNat) % 256 = fr[4].toNat := by
  rw [← BitVec.toNat_inj, checksum_toNat]

theorem humRawOf_toNat (fr : Vector Byte 5) : (humRawOf fr).toNat = fr[0].toNat * 256 + fr[1].toNat :=
  toNat_append_eq_add fr[0] fr[1]

theorem tempRawOf_toNat (fr : Vector Byte 5) : (tempRawOf fr).toNat = fr[2].toNat * 256 + fr[3].toNat :=
  toNat_append_eq_add fr[2] fr[3]

/-- A captured bit is 0 or 1 (R86). -/
theorem bitOf_binary (a b : Nanos) : bitOf a b = 0 ∨ bitOf a b = 1 := by
  unfold bitOf
  split
  · exact .inl rfl
  · exact .inr rfl

/-- The saturated count, where it stands against an index of the buffer, is the count plus one (R134). -/
theorem lt_of_satInc_le {c : Byte} {n : Nat} (hn : n < 40) (h : (satInc c).toNat ≤ n) : c.toNat < n := by
  unfold satInc at h
  split at h
  · exact absurd h (by simp; omega)
  · bv_omega

end Sys2Proof.Proofs
end

section
/-! The invariants of R28 are kept by every effect an instruction can have. Each lemma names the clauses its effect
touches; the clauses of fields it leaves unchanged are those of the state before it. -/

namespace Sys2Proof.Proofs

open Sys2Proof.Machine

variable {s : State}

/-- A state that is not BUSY meets every clause about a read in flight. -/
theorem of_busy_of_not_busy {p : Prop} (hb : s.busy = false) (h : s.busy = true) : p :=
  absurd h (by simp [hb])

/-! ### Elements no clause speaks of -/

theorem blockInv_refuse (h : BlockInv s) : BlockInv (refuse s) := { h with }

theorem blockInv_accepted (h : BlockInv s) : BlockInv (accepted s) := { h with }

theorem blockInv_writeDeadline (v : Word) (h : BlockInv s) : BlockInv (writeDeadline v s) := by
  unfold writeDeadline
  split
  · exact blockInv_refuse h
  · exact { h with }

theorem blockInv_answerRead (x : Option Nat) (h : BlockInv s) : BlockInv (answerRead x s) := by
  cases x with
  | none => exact h
  | some n => exact { h with }

/-- Taking the next input off the list and its NOW touches no element of R10. -/
theorem blockInv_with_inputs_now (inputs : List StepInput) (now : Nanos) (h : BlockInv s) :
    BlockInv { s with inputs := inputs, now := now } := { h with }

theorem blockInv_firstEdge (ts : Nanos) (h : BlockInv s) (hf : s.fsm = .collectingBits) :
    BlockInv { s with tsA := ts, phase := .B } :=
  { h with
    start_pulse := fun hp => by simp [hf] at hp
    awaiting_ack := fun hp => by simp [hf] at hp }


/-! ### The commands -/

/-- With every result discarded and the line driven low exactly in the start pulse, the invariants hold: what START,
CLEAR and reset share (R30, R80, R133). -/
theorem blockInv_clearResults (s : State) {f : SeqState} {l : LineMode} (o : OpSel) (t0 : Nanos)
    (hf : f = .idle ∨ f = .startPulseSent) (hl : l = .outLow ↔ f = .startPulseSent) :
    BlockInv { clearResults s with opsel := o, t0 := t0, line := l, fsm := f } where
  faulted_recorded h := by rcases hf with rfl | rfl <;> cases h
  start_pulse h := ⟨hl.2 h, rfl, rfl⟩
  awaiting_ack h := by rcases hf with rfl | rfl <;> cases h
  collecting h := by rcases hf with rfl | rfl <;> cases h
  busy_flags _ := ⟨rfl, rfl, rfl, rfl, rfl⟩
  busy_zero _ := ⟨rfl, rfl, rfl, rfl, rfl, rfl, rfl, rfl⟩
  alt_rdy := nofun
  rdy_chk := nofun
  chk_frame := nofun
  chk_sum := nofun
  reading_raw := nofun
  reading_float := nofun
  alt_reading := nofun
  drives := hl
  bits_above i _ := by simp
  bits_binary _ i := .inl (by simp)
  no_fault _ := ⟨rfl, rfl, rfl, rfl⟩
  hwerr_kind := fun h => absurd rfl h
  recorded := nofun

theorem blockInv_startRead (o : OpSel) (s : State) : BlockInv (startRead o s) :=
  blockInv_clearResults s o s.now (.inr rfl) (iff_of_true rfl rfl)

/-- The line is not driven outside a read, and CLEAR does not write it. -/
theorem blockInv_clearBlock (h : BlockInv s) (hb : s.busy = false) : BlockInv (clearBlock s) := by
  have hp : s.fsm ≠ .startPulseSent := fun hp => of_busy_of_not_busy hb ((busy_iff s).2 (.inl hp))
  exact blockInv_clearResults s .read s.t0 (.inl rfl) (iff_of_false (mt h.drives.1 hp) nofun)

theorem blockInv_resetWith (p : Params) : BlockInv (State.resetWith p) :=
  blockInv_clearResults (State.resetWith p) .read 0 (.inl rfl) (iff_of_false nofun nofun)

theorem blockInv_applyReset (s : State) : BlockInv (applyReset s) := { blockInv_resetWith s.params with }

/-- An element stored at BITCNT leaves those beyond the next count 0. -/
theorem storeElement_bits_above (h : BlockInv s) (v : Byte) (i : Fin 40) (hi : s.bitcnt.toNat < i.val) :
    (storeElement v s).bitbuf[i] = 0 := by
  rw [storeElement_bitbuf, if_neg hi.ne']
  exact h.bits_above i hi.le

theorem blockInv_pushElement (a : Byte) (h : BlockInv s) (hb : s.busy = false) : BlockInv (pushElement a s) :=
  { h with
    start_pulse := fun hp => of_busy_of_not_busy hb ((busy_iff s).2 (.inl hp))
    awaiting_ack := fun hp => of_busy_of_not_busy hb ((busy_iff s).2 (.inr (.inl hp)))
    collecting := fun hp => of_busy_of_not_busy hb ((busy_iff s).2 (.inr (.inr hp)))
    bits_above := fun i hi => storeElement_bits_above h a i (lt_of_satInc_le i.isLt hi)
    bits_binary := of_busy_of_not_busy hb }

theorem blockInv_packStage (h : BlockInv s) (hb : s.busy = false) : BlockInv (packStage s) := by
  rcases packStage_cases s with ⟨-, hp⟩ | ⟨-, hp⟩ <;> rw [hp]
  · exact { h with
      faulted_recorded := fun _ => rfl
      busy_flags := of_busy_of_not_busy hb
      busy_zero := of_busy_of_not_busy hb
      alt_rdy := nofun, rdy_chk := nofun, chk_frame := nofun, chk_sum := nofun
      reading_raw := nofun, reading_float := nofun, alt_reading := nofun, no_fault := nofun
      hwerr_kind := fun hw => absurd rfl hw
      recorded := fun _ => .inr (.inr (.inr (.inr (.inl ⟨rfl, rfl, rfl⟩)))) }
  · exact { h with
      busy_flags := of_busy_of_not_busy hb
      busy_zero := of_busy_of_not_busy hb
      alt_rdy := nofun, rdy_chk := nofun, chk_frame := nofun, chk_sum := nofun
      reading_raw := nofun, reading_float := nofun, alt_reading := nofun }

theorem blockInv_validateStage (h : BlockInv s) (hb : s.busy = false) (hf : s.frameV = true) :
    BlockInv (validateStage s) := by
  rcases validateStage_cases s with ⟨hc, hv⟩ | ⟨-, hv⟩ <;> rw [hv]
  · exact { h with
      busy_flags := of_busy_of_not_busy hb
      alt_rdy := nofun, rdy_chk := nofun
      chk_frame := fun _ => hf
      chk_sum := fun _ => (checksum_eq_iff s.frame).1 hc
      reading_raw := nofun, reading_float := nofun, alt_reading := nofun }
  · exact { h with
      faulted_recorded := fun _ => rfl
      busy_flags := of_busy_of_not_busy hb
      busy_zero := of_busy_of_not_busy hb
      alt_rdy := nofun, rdy_chk := nofun, chk_frame := nofun, chk_sum := nofun
      reading_raw := nofun, reading_float := nofun, alt_reading := nofun, no_fault := nofun
      hwerr_kind := fun hw => absurd rfl hw
      recorded := fun _ => .inr (.inr (.inr (.inr (.inr ⟨rfl, rfl, rfl⟩)))) }

theorem blockInv_assembleStage (h : BlockInv s) (hb : s.busy = false) (hc : s.chkV = true) :
    BlockInv (assembleStage s) :=
  { h with
    busy_flags := of_busy_of_not_busy hb
    busy_zero := of_busy_of_not_busy hb
    alt_rdy := nofun
    rdy_chk := fun _ => hc
    reading_raw := fun _ => ⟨humRawOf_toNat s.frame, tempRawOf_toNat s.frame⟩
    reading_float := fun _ => ⟨rfl, rfl⟩
    alt_reading := nofun }

theorem blockInv_altScaleStage (h : BlockInv s) (hb : s.busy = false) (hr : s.rdy = true) :
    BlockInv (altScaleStage s) :=
  { h with
    busy_flags := of_busy_of_not_busy hb
    busy_zero := of_busy_of_not_busy hb
    alt_rdy := fun _ => hr
    alt_reading := fun _ => ⟨rfl, rfl⟩ }

/-- The pipeline is its stages, one after the other while they succeed (R115). -/
theorem decodeStages_eq (s : State) :
    decodeStages s =
      if (packStage s).frameV then
        if (validateStage (packStage s)).chkV then assembleStage (validateStage (packStage s))
        else validateStage (packStage s)
      else packStage s := rfl

theorem packStage_busy (s : State) : (packStage s).busy = s.busy := by
  rcases packStage_cases s with ⟨-, h⟩ | ⟨-, h⟩ <;> rw [h] <;> rfl

theorem validateStage_busy (s : State) : (validateStage s).busy = s.busy := by
  rcases validateStage_cases s with ⟨-, h⟩ | ⟨-, h⟩ <;> rw [h] <;> rfl

theorem blockInv_decodeStages (h : BlockInv s) (hb : s.busy = false) : BlockInv (decodeStages s) := by
  have hbp := (packStage_busy s).trans hb
  have hp := blockInv_packStage h hb
  rw [decodeStages_eq]
  split
  case isFalse => exact hp
  case isTrue hf =>
    have hv := blockInv_validateStage hp hbp hf
    split
    case isFalse => exact hv
    case isTrue hc => exact blockInv_assembleStage hv ((validateStage_busy _).trans hbp) hc

/-! ### The events -/

theorem blockInv_ackOk (h : BlockInv s) (hf : s.fsm = .awaitingAck) :
    BlockInv { s with fsm := .collectingBits } := by
  have hb : s.busy = true := (busy_iff s).2 (.inr (.inl hf))
  obtain ⟨hline, hcnt, -⟩ := h.awaiting_ack hf
  exact { h with
    faulted_recorded := nofun
    start_pulse := nofun
    awaiting_ack := nofun
    collecting := fun _ => ⟨hline, by simp [hcnt]⟩
    busy_flags := fun _ => h.busy_flags hb
    busy_zero := fun _ => h.busy_zero hb
    drives := iff_of_false (by simp [hline]) nofun
    bits_binary := fun _ => h.bits_binary hb }

theorem blockInv_holdDone (h : BlockInv s) (hf : s.fsm = .startPulseSent) :
    BlockInv { s with line := .edgeIn, fsm := .awaitingAck } := by
  have hb : s.busy = true := (busy_iff s).2 (.inl hf)
  exact { h with
    faulted_recorded := nofun
    start_pulse := nofun
    awaiting_ack := fun _ => ⟨rfl, (h.start_pulse hf).2⟩
    collecting := nofun
    busy_flags := fun _ => h.busy_flags hb
    busy_zero := fun _ => h.busy_zero hb
    drives := iff_of_false nofun nofun
    bits_binary := fun _ => h.bits_binary hb }

/-- A fault that ends the read, with the line not driven after it (R157). -/
theorem blockInv_endsRead (h : BlockInv s) {k : FaultKind} {sub : BitVec 2} {c : FaultClass} {code : Word}
    {l : LineMode} (hl : l ≠ .outLow) (hk : code ≠ 0 → k = .hardware) (h6 : sixFaults k sub c) :
    BlockInv { raiseFault k sub c code true s with line := l } :=
  { h with
    faulted_recorded := fun _ => rfl
    start_pulse := nofun
    awaiting_ack := nofun
    collecting := nofun
    busy_flags := nofun
    busy_zero := nofun
    drives := iff_of_false hl nofun
    bits_binary := nofun
    no_fault := nofun
    hwerr_kind := fun hw => ⟨rfl, hk hw⟩
    recorded := fun _ => h6 }

/-- While the stream is open the line is an input (I-4, I-5). -/
theorem line_ne_outLow_of_streamOpen (h : BlockInv s) (ho : s.streamOpen = true) : s.line ≠ .outLow := by
  rcases (streamOpen_iff s).1 ho with hf | hf
  · simp [h.awaiting_ack hf]
  · simp [h.collecting hf]

theorem blockInv_endsRead_of_streamOpen (h : BlockInv s) (ho : s.streamOpen = true) {k : FaultKind} {sub : BitVec 2}
    {c : FaultClass} {code : Word} (hk : code ≠ 0 → k = .hardware) (h6 : sixFaults k sub c) :
    BlockInv (raiseFault k sub c code true s) :=
  blockInv_endsRead h (line_ne_outLow_of_streamOpen h ho) hk h6

theorem captureBit_bits_binary (h : BlockInv s) (hb : s.busy = true) (a b : Nanos) (i : Fin 40) :
    (captureBit (bitOf a b) s).bitbuf[i] = 0 ∨ (captureBit (bitOf a b) s).bitbuf[i] = 1 := by
  rw [captureBit_bitbuf]
  split
  · exact bitOf_binary a b
  · exact h.bits_binary hb i

theorem blockInv_secondEdge (ts : Nanos) (h : BlockInv s) (hf : s.fsm = .collectingBits) (hc : s.bitcnt + 1 ≠ 40) :
    BlockInv (captureBit (bitOf s.tsA ts) s) := by
  have hb : s.busy = true := (busy_iff s).2 (.inr (.inr hf))
  obtain ⟨hline, hcnt⟩ := h.collecting hf
  exact { h with
    start_pulse := fun hp => by simp [hf] at hp
    awaiting_ack := fun hp => by simp [hf] at hp
    collecting := fun _ => ⟨hline, by simp only [captureBit_bitcnt]; bv_omega⟩
    bits_above := fun i hi => storeElement_bits_above h _ i (by simp only [captureBit_bitcnt] at hi; bv_omega)
    bits_binary := fun _ => captureBit_bits_binary h hb _ _ }

/-- The read that has its 40 bits and is Complete, before the framer of a READENV runs. -/
theorem blockInv_captured (b : Byte) (h : BlockInv s) (hf : s.fsm = .collectingBits) :
    BlockInv { captureBit b s with fsm := .complete } := by
  obtain ⟨hline, hcnt⟩ := h.collecting hf
  exact { h with
    faulted_recorded := nofun
    start_pulse := nofun
    awaiting_ack := nofun
    collecting := nofun
    busy_flags := nofun
    busy_zero := nofun
    drives := iff_of_false (by simp [hline]) nofun
    bits_above := fun i hi => storeElement_bits_above h b i (by simp only [captureBit_bitcnt] at hi; bv_omega)
    bits_binary := nofun }

/-! The framer neither reads nor writes STATE. -/

theorem packStage_with_fsm (f : SeqState) (s : State) :
    packStage { s with fsm := f } = { packStage s with fsm := f } := by
  unfold packStage
  dsimp only
  split <;> rfl

theorem validateStage_with_fsm (f : SeqState) (s : State) :
    validateStage { s with fsm := f } = { validateStage s with fsm := f } := by
  unfold validateStage
  dsimp only
  split <;> rfl

theorem decodeStages_with_fsm (f : SeqState) (s : State) :
    decodeStages { s with fsm := f } = { decodeStages s with fsm := f } := by
  rw [decodeStages_eq, packStage_with_fsm, validateStage_with_fsm, decodeStages_eq]
  split
  · split <;> rfl
  · rfl

/-- A pipeline that assembled no Reading recorded a fault (R115). -/
theorem decodeStages_rdy_or_fltV (s : State) : (decodeStages s).rdy = true ∨ (decodeStages s).fltV = true := by
  rcases decodeStages_cases s with ⟨-, h⟩ | ⟨-, -, h⟩ | ⟨-, -, h⟩ <;> simp [h]

/-- A state that is Complete may be left as Faulted where a fault is recorded. -/
theorem blockInv_faulted_of_complete (h : BlockInv { s with fsm := .complete }) (hv : s.fltV = true) :
    BlockInv { s with fsm := .faulted } :=
  { h with
    faulted_recorded := fun _ => hv
    start_pulse := nofun
    awaiting_ack := nofun
    collecting := nofun
    drives := iff_of_false (fun hl => nomatch h.drives.1 hl) nofun }

/-- Completion (R85) from a read whose captured bits stand in a state that meets the invariants. -/
theorem blockInv_completeRead (h : BlockInv { s with fsm := .complete }) : BlockInv (completeRead s) := by
  rcases completeRead_cases s with ⟨-, hr⟩ | ⟨-, hr⟩ <;> rw [hr]
  · exact h
  · have hd := decodeStages_with_fsm .complete s ▸ blockInv_decodeStages h rfl
    split
    case isTrue => exact hd
    case isFalse hn => exact blockInv_faulted_of_complete hd ((decodeStages_rdy_or_fltV s).resolve_left hn)

/-! ### Every instruction, every presentation, one step -/

theorem blockInv_execEffect {i : Instr} {t : State} (h : BlockInv s) (he : ExecEffect s i t) : BlockInv t := by
  cases he with
  | nop => exact blockInv_accepted h
  | refused => exact blockInv_refuse h
  | read | readEnv => exact blockInv_accepted (blockInv_startRead _ s)
  | clear hb => exact blockInv_accepted (blockInv_clearBlock h hb)
  | pushBit a hb => exact blockInv_accepted (blockInv_pushElement a h hb)
  | pack hb => exact blockInv_accepted (blockInv_packStage h hb)
  | validate hb hf => exact blockInv_accepted (blockInv_validateStage h hb hf)
  | assemble hb hc => exact blockInv_accepted (blockInv_assembleStage h hb hc)
  | decode hb => exact blockInv_accepted (blockInv_decodeStages h hb)
  | altScale hb hr => exact blockInv_accepted (blockInv_altScaleStage h hb hr)
  | dropped => exact h
  | ackOk ts hf => exact blockInv_ackOk h hf
  | ackFailed ts hf =>
    exact blockInv_endsRead_of_streamOpen h ((streamOpen_iff s).2 (.inl hf)) (absurd rfl)
      (.inr (.inr (.inl ⟨rfl, rfl, rfl⟩)))
  | firstEdge d ts hf => exact blockInv_firstEdge ts h hf
  | secondEdge d ts hf _ hc => exact blockInv_secondEdge ts h hf hc
  | lastEdge d ts hf => exact blockInv_completeRead (blockInv_captured _ h hf)
  | badRead ho => exact blockInv_endsRead_of_streamOpen h ho (absurd rfl) (.inr (.inl ⟨rfl, rfl, rfl⟩))
  | errorInPulse w => exact blockInv_endsRead h nofun (fun _ => rfl) (.inl ⟨rfl, rfl, rfl⟩)
  | errorInStream w ho => exact blockInv_endsRead_of_streamOpen h ho (fun _ => rfl) (.inl ⟨rfl, rfl, rfl⟩)
  | deadlineInPulse => exact blockInv_endsRead h nofun (absurd rfl) (.inr (.inr (.inr (.inl ⟨rfl, rfl, rfl⟩))))
  | deadlineInStream ho =>
    exact blockInv_endsRead_of_streamOpen h ho (absurd rfl) (.inr (.inr (.inr (.inl ⟨rfl, rfl, rfl⟩))))
  | holdDone hf => exact blockInv_holdDone h hf

theorem blockInv_exec {i : Instr} {t : State} (h : BlockInv s) (he : exec i s = .next t) : BlockInv t :=
  blockInv_execEffect h (exec_effect_of he)

theorem blockInv_presentTimer {c : BitVec 1} {b : Bool} {t : State} (h : BlockInv s)
    (ht : presentTimer c b s = .next t) : BlockInv t := by
  obtain rfl | he := presentTimer_cases ht
  · exact h
  · exact blockInv_exec h he

theorem blockInv_presentLine {x : Option LineWord} {t : State} (h : BlockInv s)
    (ht : presentLine x s = .next t) : BlockInv t := by
  obtain rfl | ⟨_, _, -, -, he⟩ := presentLine_cases ht
  · exact h
  · exact blockInv_exec h he

theorem blockInv_presentWrite {x : Option (Nat × Word)} {t : State} (h : BlockInv s)
    (ht : presentWrite x s = .next t) : BlockInv t := by
  obtain rfl | rfl | ⟨v, rfl⟩ | ⟨_, _, -, -, he⟩ := presentWrite_cases ht
  · exact h
  · exact blockInv_refuse h
  · exact blockInv_writeDeadline v h
  · exact blockInv_exec h he

theorem blockInv_takeInput {inp : StepInput} {t : State} (h : BlockInv s) (ht : takeInput inp s = .next t) :
    BlockInv t := by
  rcases takeInput_cases inp s with ⟨-, hr⟩ | ⟨-, s1, s2, s3, t', h1, h2, h3, h4, hr⟩ <;> cases ht.symm.trans hr
  · exact blockInv_applyReset _
  · have hi1 := blockInv_presentTimer (blockInv_answerRead inp.hostRead h) h1
    exact blockInv_presentWrite (blockInv_presentTimer (blockInv_presentLine hi1 h2) h3) h4

/-- Settles O58: a step presents nothing, or takes one input on a state that differs from the one before it only in
fields of the model's own, and every part of taking an input keeps the invariants. -/
theorem everyStepKeepsTheInvariants : Obligations.EveryStepKeepsTheInvariants := by
  intro s t h ht
  cases hin : s.inputs with
  | nil => cases (step_of_inputs_nil hin).symm.trans ht; exact h
  | cons inp rest =>
    rw [step_of_inputs_cons hin] at ht
    exact blockInv_takeInput (blockInv_with_inputs_now rest inp.now h) ht

/-- Settles O57: every element of R30 is what a discarded result is, and the line is unclaimed. -/
theorem resetMeetsTheInvariants : Obligations.ResetMeetsTheInvariants :=
  ⟨blockInv_resetWith, blockInv_resetWith Config.params⟩

end Sys2Proof.Proofs
end

section
/-! The registers as the host reads them (R25, R26, R27): each field of STATUS at its place, the printed values of
FAULT, and the data registers in the arithmetic of the natural numbers. -/

namespace Sys2Proof.Proofs

open Sys2Proof.Machine

/-! ### STATUS -/

theorem bit1_getLsbD_zero (b : Bool) : (bit1 b).getLsbD 0 = b := by cases b <;> rfl

theorem phase_code_getLsbD_zero (p : Phase) : p.code.getLsbD 0 = true ↔ p = .B := by
  cases p <;> decide

theorem opsel_code_getLsbD_zero (o : OpSel) : o.code.getLsbD 0 = true ↔ o = .readEnv := by
  cases o <;> decide

theorem done_iff (s : State) : s.done = true ↔ s.fsm = .complete ∨ s.fsm = .faulted := by
  unfold State.done; cases s.fsm <;> simp

theorem statusView_state (s : State) : (statusView s).extractLsb' 0 3 = s.fsm.code :=
  BitVec.extractLsb'_append_eq_right

theorem statusView_bitcnt (s : State) : (statusView s).extractLsb' 8 8 = s.bitcnt := by
  refine (BitVec.extractLsb'_append_eq_of_le (by decide)).trans ?_
  simp (disch := decide) only [BitVec.extractLsb'_append_eq_of_le]
  exact BitVec.extractLsb'_append_eq_right

theorem statusView_line (s : State) : (statusView s).extractLsb' 16 2 = s.line.code := by
  refine (BitVec.extractLsb'_append_eq_of_le (by decide)).trans ?_
  simp (disch := decide) only [BitVec.extractLsb'_append_eq_of_le]
  exact BitVec.extractLsb'_append_eq_right

theorem statusView_above_opsel (s : State) : (statusView s).extractLsb' 23 9 = 0 := by
  refine (BitVec.extractLsb'_append_eq_of_le (by decide)).trans ?_
  simp (disch := decide) only [BitVec.extractLsb'_append_eq_of_le]
  rfl

/-- The ten one-bit fields, PHASE and OPSEL by their codes. -/
theorem statusView_bits (s : State) :
    (statusView s).getLsbD 3 = s.busy ∧ (statusView s).getLsbD 4 = s.done ∧ (statusView s).getLsbD 5 = s.rdy ∧
    (statusView s).getLsbD 6 = s.altV ∧ (statusView s).getLsbD 7 = s.fltV ∧
    (statusView s).getLsbD 18 = s.phase.code.getLsbD 0 ∧ (statusView s).getLsbD 19 = s.frameV ∧
    (statusView s).getLsbD 20 = s.chkV ∧ (statusView s).getLsbD 21 = s.rej ∧
    (statusView s).getLsbD 22 = s.opsel.code.getLsbD 0 := by
  refine ⟨?_, ?_, ?_, ?_, ?_, ?_, ?_, ?_, ?_, ?_⟩ <;>
  · refine BitVec.getLsbD_append.trans ?_
    simp only [BitVec.getLsbD_append, bit1_getLsbD_zero, reduceIte, Nat.reduceLT, Nat.reduceSub]

/-- Settles O13: STATUS is its fields put side by side, so each stands where the widths below it put it. -/
theorem statusRegisterLayout : Obligations.StatusRegisterLayout := by
  intro s
  obtain ⟨hbusy, hdone, hrdy, haltV, hfltV, hphase, hframeV, hchkV, hrej, hopsel⟩ := statusView_bits s
  refine ⟨statusView s, rfl, (statusView_state s).trans ?_, ?_, ?_, hrdy, haltV, hfltV, statusView_bitcnt s,
    (statusView_line s).trans ?_, ?_, hframeV, hchkV, hrej, ?_, statusView_above_opsel s⟩
  · cases s.fsm <;> rfl
  · rw [hbusy, busy_iff]
  · rw [hdone, done_iff]
  · cases s.line <;> rfl
  · rw [hphase, phase_code_getLsbD_zero]
  · rw [hopsel, opsel_code_getLsbD_zero]

/-! ### FAULT -/

/-- FAULT packs the codes of a recorded fault (R26). -/
theorem faultView_of_fltV {s : State} (h : s.fltV = true) :
    faultView s =
      (0 : BitVec 23) ++ s.fltClass.code ++ (0 : BitVec 2) ++ s.fltSub ++ (0 : BitVec 1) ++ s.fltKind.code :=
  if_pos h

/-- Settles O14: with the codes of R69 the word of R26 is the printed one. -/
theorem faultRegisterReadsTheSixFaults : Obligations.FaultRegisterReadsTheSixFaults := by
  intro s
  refine ⟨rfl, fun h => if_neg (by simp [h]), ?_, ?_, ?_, ?_, ?_, ?_⟩ <;>
  · intro hv hk hs hc
    refine (faultView_of_fltV hv).trans ?_
    rw [hk, hs, hc]
    decide

/-! ### The data registers -/

/-- Four bytes as a word, the first in the most significant place (R27). -/
theorem toNat_append_four (a b c d : Byte) :
    (a ++ b ++ c ++ d).toNat = a.toNat * 2 ^ 24 + b.toNat * 2 ^ 16 + c.toNat * 2 ^ 8 + d.toNat := by
  simp only [toNat_append_eq_add]
  ring

theorem floatLo_toNat (x : BitVec 64) : (floatLo x).toNat = x.toNat % 2 ^ 32 := by
  simp [floatLo]

theorem floatHi_binary32 (x : BitVec 64) : floatHi .binary32 x = 0 := rfl

theorem floatHi_binary64_toNat (x : BitVec 64) : (floatHi .binary64 x).toNat = x.toNat / 2 ^ 32 := by
  simp only [floatHi, BitVec.extractLsb'_toNat, Nat.shiftRight_eq_div_pow]
  omega

/-- A pair of registers shows one float (R27). -/
theorem float_views (f : FloatFmt) (x : BitVec 64) :
    (floatLo x).toNat = x.toNat % 2 ^ 32 ∧ (f = .binary32 → floatHi f x = 0) ∧
      (f = .binary64 → (floatHi f x).toNat = x.toNat / 2 ^ 32) :=
  ⟨floatLo_toNat x, fun h => h ▸ floatHi_binary32 x, fun h => h ▸ floatHi_binary64_toNat x⟩

theorem element_eq_getElem (s : State) (i : Fin 40) : element s i.val = s.bitbuf[i] := by
  simp [element]

theorem hostRead_bits (s : State) (k : Fin 10) : hostRead (16 + k.val) s = bitsView s k.val := by
  fin_cases k <;> rfl

theorem bitsView_toNat (s : State) (k : Fin 10) {a b c d : Fin 40} (ha : a.val = 4 * k.val) (hb : b.val = 4 * k.val + 1)
    (hc : c.val = 4 * k.val + 2) (hd : d.val = 4 * k.val + 3) :
    (bitsView s k.val).toNat =
      s.bitbuf[a].toNat * 2 ^ 24 + s.bitbuf[b].toNat * 2 ^ 16 + s.bitbuf[c].toNat * 2 ^ 8 + s.bitbuf[d].toNat := by
  unfold bitsView
  rw [← hd, ← hc, ← hb, ← ha]
  simp only [element_eq_getElem]
  exact toNat_append_four _ _ _ _

/-- Settles O15: every data register is its elements put side by side or a half of one. -/
theorem dataRegisterViews : Obligations.DataRegisterViews := by
  intro s
  refine ⟨rfl, toNat_append_four _ _ _ _, ?_, toNat_append_eq_add _ _, ?_, ?_⟩
  · exact BitVec.toNat_setWidth_of_le (by decide)
  · intro n x hx
    simp only [List.mem_cons, Prod.mk.injEq, List.not_mem_nil, or_false] at hx
    obtain ⟨rfl, rfl⟩ | ⟨rfl, rfl⟩ | ⟨rfl, rfl⟩ | ⟨rfl, rfl⟩ := hx <;> exact float_views _ _
  · intro k a b c d ha hb hc hd
    rw [hostRead_bits]
    exact bitsView_toNat s k ha hb hc hd

/-! ### The reset values -/

theorem floatHi_zero (f : FloatFmt) : floatHi f 0 = 0 := by cases f <;> rfl

theorem element_resetWith (p : Params) (i : Nat) : element (State.resetWith p) i = 0 :=
  List.getD_eq_getElem?_getD.trans (List.getElem?_getD_replicate_default_eq 0 40 i)

theorem bitsView_resetWith (p : Params) (k : Nat) : bitsView (State.resetWith p) k = 0 := by
  simp only [bitsView, element_resetWith]
  rfl

/-- STATUS does not depend on the parameters, which are no state (R29). -/
theorem statusView_resetWith (p : Params) : statusView (State.resetWith p) = 0 := by
  change statusView (State.resetWith ⟨.binary32, 0, 0⟩) = 0
  decide

theorem frameDataView_resetWith (p : Params) : frameDataView (State.resetWith p) = 0 := by
  simp only [frameDataView, State.resetWith, Vector.getElem_replicate]
  rfl

theorem rawView_resetWith (p : Params) : rawView (State.resetWith p) = 0 := by
  simp only [rawView, State.resetWith]
  rfl

/-- After reset every register but DEADLINE reads 0 (R181). -/
theorem hostRead_resetWith (p : Params) {n : Nat} (hn : n ≠ 4) : hostRead n (State.resetWith p) = 0 := by
  unfold hostRead
  split
  case h_5 => exact absurd rfl hn
  case h_2 => exact statusView_resetWith p
  case h_6 => exact frameDataView_resetWith p
  case h_8 => exact rawView_resetWith p
  case h_10 | h_12 | h_14 | h_16 => exact floatHi_zero p.floatFmt
  case h_17 =>
    split
    · exact bitsView_resetWith p _
    · rfl
  all_goals rfl

/-- Settles O55: the reset state is the record of R30, and its registers and pins are read off it. -/
theorem resetValues : Obligations.ResetValues := by
  intro p
  refine ⟨State.resetWith p, rfl, rfl, rfl, rfl, rfl, rfl, rfl, fun k => ?_, fun g => ?_, rfl, rfl, rfl, rfl, rfl,
    rfl, rfl, rfl, rfl, rfl, rfl, rfl, rfl, rfl, rfl, rfl, rfl, rfl, fun n hn => hostRead_resetWith p hn, rfl, rfl, rfl, rfl,
    rfl, rfl⟩
  · exact Vector.getElem_replicate k.isLt
  · exact Vector.getElem_replicate g.isLt

end Sys2Proof.Proofs
end

section
/-! What an instruction does to STATE (R11), to the configuration (R14, R22 to R24, R29) and to the fault record (R21,
R160), each read off the list of effects; and when a step ends in Complete (I-12). -/

namespace Sys2Proof.Proofs

open Sys2Proof.Machine

variable {s t : State} {i : Instr}

/-! ### STATE -/

theorem packStage_fsm (s : State) : (packStage s).fsm = s.fsm := by
  rcases packStage_cases s with ⟨-, h⟩ | ⟨-, h⟩ <;> rw [h]

theorem validateStage_fsm (s : State) : (validateStage s).fsm = s.fsm := by
  rcases validateStage_cases s with ⟨-, h⟩ | ⟨-, h⟩ <;> rw [h]

theorem busy_of_streamOpen (h : s.streamOpen = true) : s.busy = true :=
  (busy_iff s).2 (.inr ((streamOpen_iff s).1 h))

/-- The moves of STATE to `f` an instruction can make (R11): it stays, a START accepted enters a read, CLEAR accepted
enters Idle, an event moves a read in flight onward or into Faulted, and the second edge of the 40th pair enters
Complete. -/
inductive FsmMove (s : State) (i : Instr) (f : SeqState) : Prop where
  | stay : f = s.fsm → FsmMove s i f
  | start : i = .read ∨ i = .readEnv → s.busy = false → f = .startPulseSent → FsmMove s i f
  | clear : i = .clear → s.busy = false → f = .idle → FsmMove s i f
  | inFlight : s.busy = true → f = .awaitingAck ∨ f = .collectingBits ∨ f = .faulted → FsmMove s i f
  | complete : s.fsm = .collectingBits → s.phase = .B → s.bitcnt = 39 → (∃ dir ts, i = .edge dir ts) →
      f = .complete → FsmMove s i f

theorem fsmMove_of_execEffect (h : ExecEffect s i t) : FsmMove s i t.fsm := by
  cases h with
  | nop | refused | pushBit | assemble | altScale | dropped | firstEdge | secondEdge => exact .stay rfl
  | pack => exact .stay (packStage_fsm s)
  | validate => exact .stay (validateStage_fsm s)
  | decode => exact .stay (decodeStages_keep s).1
  | read hb => exact .start (.inl rfl) hb rfl
  | readEnv hb => exact .start (.inr rfl) hb rfl
  | clear hb => exact .clear rfl hb rfl
  | ackOk ts hf => exact .inFlight ((busy_iff s).2 (.inr (.inl hf))) (.inr (.inl rfl))
  | ackFailed ts hf => exact .inFlight ((busy_iff s).2 (.inr (.inl hf))) (.inr (.inr rfl))
  | lastEdge d ts hf hp hc =>
    rcases (completeRead_keep (captureBit (bitOf s.tsA ts) s)).1 with hcomp | hflt
    · exact .complete hf hp (by bv_omega) ⟨d, ts, rfl⟩ hcomp
    · exact .inFlight ((busy_iff s).2 (.inr (.inr hf))) (.inr (.inr hflt))
  | badRead ho | errorInStream _ ho | deadlineInStream ho => exact .inFlight (busy_of_streamOpen ho) (.inr (.inr rfl))
  | errorInPulse _ hf | deadlineInPulse hf => exact .inFlight ((busy_iff s).2 (.inl hf)) (.inr (.inr rfl))
  | holdDone hf => exact .inFlight ((busy_iff s).2 (.inl hf)) (.inl rfl)

theorem fsmMove_of_exec (h : exec i s = .next t) : FsmMove s i t.fsm := fsmMove_of_execEffect (exec_effect_of h)

theorem done_of_fsm (h : t.fsm = s.fsm) : t.done = s.done := by
  unfold State.done; rw [h]

theorem not_busy_of_done (h : s.done = true) : s.busy = false := by
  rcases (done_iff s).1 h with hf | hf
  · exact (not_busy_iff s).2 (.inr (.inl hf))
  · exact (not_busy_iff s).2 (.inr (.inr hf))

/-- Settles O35: of the moves of STATE only START and CLEAR end in StartPulseSent or Idle or begin in a terminal
state. -/
theorem onlyStartAndClearLeaveATerminalState : Obligations.OnlyStartAndClearLeaveATerminalState := by
  intro i s t h
  rcases fsmMove_of_exec h with hs | ⟨hi, hb, ht⟩ | ⟨hi, hb, ht⟩ | ⟨hb, ht⟩ | ⟨hf, -, -, -, ht⟩
  · refine ⟨fun ht hn => absurd (hs.symm.trans ht) hn, fun ht hn => absurd (hs.symm.trans ht) hn, fun hd hn => ?_⟩
    exact nomatch hd.symm.trans ((done_of_fsm hs).symm.trans hn)
  · exact ⟨fun _ _ => ⟨hi, hb⟩, fun h0 => (nomatch ht.symm.trans h0), fun _ _ => hi.imp_right .inl⟩
  · exact ⟨fun h0 => (nomatch ht.symm.trans h0), fun _ _ => ⟨hi, hb⟩, fun _ _ => .inr (.inr hi)⟩
  · refine ⟨fun h0 => ?_, fun h0 => ?_, fun hd => of_busy_of_not_busy (not_busy_of_done hd) hb⟩ <;> simp [h0] at ht
  · exact ⟨fun h0 => (nomatch ht.symm.trans h0), fun h0 => (nomatch ht.symm.trans h0), fun hd =>
      of_busy_of_not_busy (not_busy_of_done hd) ((busy_iff s).2 (.inr (.inr hf)))⟩

/-! ### Entering Complete -/

/-- An instruction that enters Complete is the second edge of the 40th pair (R85). -/
theorem exec_enters_complete (h : exec i s = .next t) (hs : s.fsm ≠ .complete) (ht : t.fsm = .complete) :
    s.fsm = .collectingBits ∧ s.phase = .B ∧ s.bitcnt = 39 ∧ ∃ dir ts, i = .edge dir ts := by
  rcases fsmMove_of_exec h with h1 | ⟨-, -, h1⟩ | ⟨-, -, h1⟩ | ⟨-, h1⟩ | ⟨hf, hp, hc, hi, -⟩
  · exact absurd (h1.symm.trans ht) hs
  · exact nomatch h1.symm.trans ht
  · exact nomatch h1.symm.trans ht
  · simp [ht] at h1
  · exact ⟨hf, hp, hc, hi⟩

/-- DEADLINE is dropped, or ends the read (R89). -/
theorem exec_deadline_cases (h : exec .deadline s = .next t) : t = s ∨ t.fsm = .faulted := by
  cases exec_effect_of h with
  | refused _ hi => exact nomatch hi
  | dropped => exact .inl rfl
  | deadlineInPulse | deadlineInStream => exact .inr rfl

/-- No presentation of a timer enters Complete. -/
theorem presentTimer_ne_complete {c : BitVec 1} {b : Bool} (h : presentTimer c b s = .next t)
    (hs : s.fsm ≠ .complete) : t.fsm ≠ .complete := by
  intro ht
  rcases presentTimer_cases h with rfl | he
  · exact hs ht
  · obtain ⟨-, -, -, dir, ts, hi⟩ := exec_enters_complete he hs ht
    unfold decodeTimer at hi
    split at hi <;> cases hi

/-- No host write enters Complete: a word on CMD is no edge. -/
theorem presentWrite_ne_complete {x : Option (Nat × Word)} (h : presentWrite x s = .next t)
    (hs : s.fsm ≠ .complete) : t.fsm ≠ .complete := by
  intro ht
  rcases presentWrite_cases h with rfl | rfl | ⟨v, rfl⟩ | ⟨w, i, -, hw, he⟩
  · exact hs ht
  · exact hs ht
  · unfold writeDeadline at ht
    split at ht <;> exact hs ht
  · obtain ⟨-, -, -, dir, ts, rfl⟩ := exec_enters_complete he hs ht
    exact nomatch not_isEvent_of_decodeWord_cmd hw

/-- A line event that enters Complete is an edge (R85). -/
theorem presentLine_enters_complete {x : Option LineWord} (h : presentLine x s = .next t) (hs : s.fsm ≠ .complete)
    (ht : t.fsm = .complete) :
    s.fsm = .collectingBits ∧ s.phase = .B ∧ s.bitcnt = 39 ∧
      ∃ e dir ts, x = some e ∧ decodeWord (.line e) = .ok (.edge dir ts) := by
  rcases presentLine_cases h with rfl | ⟨e, i, hx, hw, he⟩
  · exact absurd ht hs
  · obtain ⟨hf, hp, hc, dir, ts, rfl⟩ := exec_enters_complete he hs ht
    exact ⟨hf, hp, hc, e, dir, ts, hx, hw⟩

/-- Answering a host read writes nothing but the value read. -/
theorem answerRead_eq (x : Option Nat) (s : State) : ∃ r, answerRead x s = { s with readData := r } := by
  cases x with
  | none => exact ⟨s.readData, rfl⟩
  | some n => exact ⟨_, rfl⟩

theorem takeInput_enters_complete {inp : StepInput} (h : takeInput inp s = .next t) (hs : s.fsm ≠ .complete)
    (ht : t.fsm = .complete) :
    s.fsm = .collectingBits ∧ s.phase = .B ∧ s.bitcnt = 39 ∧
      ∃ e dir ts, inp.lineEvent = some e ∧ decodeWord (.line e) = .ok (.edge dir ts) := by
  rcases takeInput_cases inp s with ⟨-, hr⟩ | ⟨-, s1, s2, s3, t', h1, h2, h3, h4, hr⟩ <;> cases h.symm.trans hr
  · exact nomatch ht
  · obtain ⟨r, hread⟩ := answerRead_eq inp.hostRead s
    rw [hread] at h1
    have hs1 : s1.fsm ≠ .complete := presentTimer_ne_complete h1 hs
    have hs2 : s2.fsm = .complete := by
      by_contra hn
      exact presentWrite_ne_complete h4 (presentTimer_ne_complete h3 hn) ht
    obtain ⟨hf, hp, hc, hedge⟩ := presentLine_enters_complete h2 hs1 hs2
    rcases presentTimer_cases h1 with rfl | hd
    · exact ⟨hf, hp, hc, hedge⟩
    · rcases exec_deadline_cases hd with rfl | hflt
      · exact ⟨hf, hp, hc, hedge⟩
      · exact nomatch hf.symm.trans hflt

/-- Settles O34: of the presentations of a step only the line event can enter Complete, and it does so from the state
before the step, since a DEADLINE that changed that state would have ended the read. -/
theorem completeOnlyByTheFortiethBit : Obligations.CompleteOnlyByTheFortiethBit := by
  intro s t h hs ht
  cases hin : s.inputs with
  | nil =>
    cases (step_of_inputs_nil hin).symm.trans h
    exact absurd ht hs
  | cons inp rest =>
    rw [step_of_inputs_cons hin] at h
    obtain ⟨hf, hp, hc, e, dir, ts, he, hw⟩ := takeInput_enters_complete h hs ht
    exact ⟨hf, hp, hc, inp, rest, e, dir, ts, rfl, he, hw⟩

/-! ### The configuration -/

/-- What no instruction writes: DEADLINE and the model's own fields (R23, R29). -/
theorem execEffect_configuration (h : ExecEffect s i t) :
    t.deadline = s.deadline ∧ t.params = s.params ∧ t.now = s.now ∧ t.inputs = s.inputs ∧
      t.readData = s.readData := by
  cases h with
  | pack => rcases packStage_cases s with ⟨-, h⟩ | ⟨-, h⟩ <;> rw [h] <;> exact ⟨rfl, rfl, rfl, rfl, rfl⟩
  | validate =>
    rcases validateStage_cases s with ⟨-, h⟩ | ⟨-, h⟩ <;> rw [h] <;> exact ⟨rfl, rfl, rfl, rfl, rfl⟩
  | decode =>
    obtain ⟨-, -, -, -, -, -, -, -, hd, -, hp, hn, hi, hr⟩ := decodeStages_keep s
    exact ⟨hd, hp, hn, hi, hr⟩
  | lastEdge d ts =>
    obtain ⟨-, -, -, -, -, -, -, -, hd, -, hp, hn, hi, hr⟩ := completeRead_keep (captureBit (bitOf s.tsA ts) s)
    exact ⟨hd, hp, hn, hi, hr⟩
  | _ => exact ⟨rfl, rfl, rfl, rfl, rfl⟩

/-- T0 and OPSEL are written by START, and OPSEL by CLEAR accepted (R14, R24). -/
theorem execEffect_t0_opsel (h : ExecEffect s i t) (hr : i ≠ .read) (he : i ≠ .readEnv) :
    t.t0 = s.t0 ∧ t.opsel = if i = .clear ∧ s.busy = false then .read else s.opsel := by
  cases h with
  | read => exact absurd rfl hr
  | readEnv => exact absurd rfl he
  | clear hb => exact ⟨rfl, (if_pos ⟨rfl, hb⟩).symm⟩
  | refused _ _ _ hq =>
    refine ⟨rfl, (if_neg ?_).symm⟩
    rintro ⟨rfl, hb⟩
    exact hq.elim (of_busy_of_not_busy hb) nofun
  | dropped _ hi =>
    refine ⟨rfl, (if_neg ?_).symm⟩
    rintro ⟨rfl, -⟩
    exact nomatch hi
  | pack => rcases packStage_cases s with ⟨-, h⟩ | ⟨-, h⟩ <;> rw [h] <;> exact ⟨rfl, rfl⟩
  | validate => rcases validateStage_cases s with ⟨-, h⟩ | ⟨-, h⟩ <;> rw [h] <;> exact ⟨rfl, rfl⟩
  | decode =>
    obtain ⟨-, -, -, -, ho, -, -, -, -, ht, -⟩ := decodeStages_keep s
    exact ⟨ht, ho⟩
  | lastEdge d ts =>
    obtain ⟨-, -, -, -, ho, -, -, -, -, ht, -⟩ := completeRead_keep (captureBit (bitOf s.tsA ts) s)
    exact ⟨ht, ho⟩
  | _ => exact ⟨rfl, rfl⟩

/-- No event writes REJ (R22). -/
theorem execEffect_rej_of_isEvent (h : ExecEffect s i t) (hi : isEvent i = true) : t.rej = s.rej := by
  cases h with
  | refused _ hn => exact nomatch hi.symm.trans hn
  | lastEdge d ts =>
    obtain ⟨-, -, -, -, -, -, -, hrej, -⟩ := completeRead_keep (captureBit (bitOf s.tsA ts) s)
    exact hrej
  | nop | read | readEnv | clear | pushBit | pack | validate | assemble | decode | altScale => exact nomatch hi
  | _ => rfl

/-- Settles O52: field by field over the effects. -/
theorem configurationIsNotTheirsToWrite : Obligations.ConfigurationIsNotTheirsToWrite := by
  intro i s t h
  have he := exec_effect_of h
  obtain ⟨hd, hp, hn, hi, hr⟩ := execEffect_configuration he
  refine ⟨hd, hp, hn, hi, hr, execEffect_t0_opsel he, fun dir ts code hev => execEffect_rej_of_isEvent he ?_⟩
  rcases hev with rfl | rfl | rfl | rfl | rfl <;> rfl

/-! ### The fault record -/

theorem packStage_record (s : State) :
    (s.bitcnt ≠ 40 ∧ (packStage s).record = (true, .decode, 0, .conversion, 0)) ∨
      (packStage s).record = s.record := by
  rcases packStage_cases s with ⟨hb, h⟩ | ⟨-, h⟩ <;> rw [h]
  · exact .inl ⟨hb, rfl⟩
  · exact .inr rfl

/-- VALIDATE records a fault only over a frame whose checksum fails (R113). -/
theorem validateStage_record (s : State) :
    (checksum (validateStage s).frame ≠ (validateStage s).frame[4] ∧
      (validateStage s).record = (true, .decode, 1, .conversion, 0)) ∨
      (validateStage s).record = s.record := by
  rcases validateStage_cases s with ⟨-, h⟩ | ⟨hc, h⟩ <;> rw [h]
  · exact .inr rfl
  · exact .inl ⟨hc, rfl⟩

theorem decodeStages_record (s : State) :
    (s.bitcnt ≠ 40 ∧ (decodeStages s).record = (true, .decode, 0, .conversion, 0)) ∨
    (s.bitcnt = 40 ∧ checksum (decodeStages s).frame ≠ (decodeStages s).frame[4] ∧
      (decodeStages s).record = (true, .decode, 1, .conversion, 0)) ∨
      (decodeStages s).record = s.record := by
  rcases decodeStages_cases s with ⟨hb, h⟩ | ⟨hb, hc, h⟩ | ⟨-, -, h⟩ <;> rw [h]
  · exact .inl ⟨hb, rfl⟩
  · exact .inr (.inl ⟨hb, hc, rfl⟩)
  · exact .inr (.inr rfl)

/-- Completion with all 40 bits records a fault only as READENV, over a frame whose checksum fails (R85). -/
theorem completeRead_record (s : State) (hb : s.bitcnt = 40) :
    (s.opsel = .readEnv ∧ checksum (completeRead s).frame ≠ (completeRead s).frame[4] ∧
      (completeRead s).record = (true, .decode, 1, .conversion, 0)) ∨
      (completeRead s).record = s.record := by
  rcases completeRead_cases s with ⟨-, h⟩ | ⟨ho, h⟩ <;> rw [h]
  · exact .inr rfl
  · rcases decodeStages_record s with ⟨hn, -⟩ | ⟨-, hc, hr⟩ | hr
    · exact absurd hb hn
    · exact .inl ⟨ho, hc, hr⟩
    · exact .inr hr

/-- Settles O54: each effect keeps the record, clears it, or overwrites it by the fault it is the cause of. -/
theorem faultRecordIsSticky : Obligations.FaultRecordIsSticky := by
  intro i s t h
  cases exec_effect_of h with
  | nop | refused | pushBit | assemble | altScale | dropped | ackOk | firstEdge | secondEdge | holdDone =>
    exact .inl rfl
  | read hb => exact .inr (.inl ⟨rfl, .inl rfl, hb⟩)
  | readEnv hb => exact .inr (.inl ⟨rfl, .inr (.inl rfl), hb⟩)
  | clear hb => exact .inr (.inl ⟨rfl, .inr (.inr rfl), hb⟩)
  | errorInPulse w hf => exact .inr (.inr (.inl ⟨w, rfl, rfl, (busy_iff s).2 (.inl hf)⟩))
  | errorInStream w ho => exact .inr (.inr (.inl ⟨w, rfl, rfl, busy_of_streamOpen ho⟩))
  | badRead ho => exact .inr (.inr (.inr (.inl ⟨rfl, rfl, (streamOpen_iff s).1 ho⟩)))
  | ackFailed ts hf => exact .inr (.inr (.inr (.inr (.inl ⟨rfl, ⟨ts, rfl⟩, hf⟩))))
  | deadlineInPulse hf => exact .inr (.inr (.inr (.inr (.inr (.inl ⟨rfl, rfl, (busy_iff s).2 (.inl hf)⟩)))))
  | deadlineInStream ho => exact .inr (.inr (.inr (.inr (.inr (.inl ⟨rfl, rfl, busy_of_streamOpen ho⟩)))))
  | pack hb =>
    rcases packStage_record s with ⟨hn, hr⟩ | hr
    · exact .inr (.inr (.inr (.inr (.inr (.inr (.inl ⟨hr, .inl rfl, hb, hn⟩))))))
    · exact .inl hr
  | validate hb hf =>
    rcases validateStage_record s with ⟨hc, hr⟩ | hr
    · exact .inr (.inr (.inr (.inr (.inr (.inr (.inr
        ⟨hr, mt (checksum_eq_iff _).2 hc, .inl ⟨rfl, hb, hf⟩⟩))))))
    · exact .inl hr
  | decode hb =>
    rcases decodeStages_record s with ⟨hn, hr⟩ | ⟨hn, hc, hr⟩ | hr
    · exact .inr (.inr (.inr (.inr (.inr (.inr (.inl ⟨hr, .inr rfl, hb, hn⟩))))))
    · exact .inr (.inr (.inr (.inr (.inr (.inr (.inr
        ⟨hr, mt (checksum_eq_iff _).2 hc, .inr (.inl ⟨rfl, hb, hn⟩)⟩))))))
    · exact .inl hr
  | lastEdge d ts hf hp hn =>
    rcases completeRead_record (captureBit (bitOf s.tsA ts) s) hn with ⟨ho, hc, hr⟩ | hr
    · exact .inr (.inr (.inr (.inr (.inr (.inr (.inr ⟨hr, mt (checksum_eq_iff _).2 hc,
        .inr (.inr ⟨⟨d, ts, rfl⟩, hf, hp, by bv_omega, ho⟩)⟩))))))
    · exact .inl hr

end Sys2Proof.Proofs
end

section
/-! What a host write can do (R42, R130, R135), by register number, and what BUSY leaves of it (R51). -/

namespace Sys2Proof.Proofs

open Sys2Proof.Machine

theorem hostWrite_cmd_of_ok {v : Word} {i : Instr} (h : decodeWord (.cmd v) = .ok i) (s : State) :
    hostWrite 0 v s = exec i s := by
  simp only [hostWrite, execCmd, h]

theorem hostWrite_cmd_of_error {v : Word} {x : DecodeReject} (h : decodeWord (.cmd v) = .error x) (s : State) :
    hostWrite 0 v s = .next (refuse s) := by
  simp only [hostWrite, execCmd, h]

theorem hostWrite_deadline (v : Word) (s : State) : hostWrite 4 v s = .next (writeDeadline v s) := rfl

theorem hostWrite_unmapped {n : Nat} (h0 : n ≠ 0) (h4 : n ≠ 4) (v : Word) (s : State) :
    hostWrite n v s = .next s := by
  unfold hostWrite
  split
  · exact absurd rfl h0
  · exact absurd rfl h4
  · rfl

theorem writeDeadline_of_busy {s : State} (hb : s.busy = true) (v : Word) : writeDeadline v s = refuse s :=
  if_pos hb

theorem writeDeadline_of_not_busy {s : State} (hb : s.busy = false) (v : Word) :
    writeDeadline v s = accepted { s with deadline := v } :=
  if_neg (by simp [hb])

/-- Settles O11: one equation per register number that is mapped for writing, and one for every other. -/
theorem hostWriteReachesCmdAndDeadline : Obligations.HostWriteReachesCmdAndDeadline := by
  refine fun s v => ⟨fun i hi => hostWrite_cmd_of_ok hi s, fun x hx => hostWrite_cmd_of_error hx s, fun hb => ?_,
    fun hb => ?_, fun n h0 h4 => hostWrite_unmapped h0 h4 v s⟩
  · rw [hostWrite_deadline, writeDeadline_of_busy hb]
    rfl
  · rw [hostWrite_deadline, writeDeadline_of_not_busy hb]
    rfl

/-- While BUSY a command is refused, but for NOP, which is accepted (R130, R132). -/
theorem execEffect_command_of_busy {s t : State} {i : Instr} (h : ExecEffect s i t) (hi : isEvent i = false)
    (hb : s.busy = true) : t = accepted s ∨ t = refuse s := by
  cases h with
  | nop => exact .inl rfl
  | refused => exact .inr rfl
  | read hn | readEnv hn | clear hn | pushBit _ hn | pack hn | validate hn | assemble hn | decode hn | altScale hn =>
    exact of_busy_of_not_busy hn hb
  | dropped _ he => exact nomatch hi.symm.trans he
  | _ => exact nomatch hi

/-- Settles O51: while BUSY a write is dropped, refused, or an accepted NOP. -/
theorem busyGuardProtectsTheRead : Obligations.BusyGuardProtectsTheRead := by
  intro s n v hb
  obtain ⟨t, ht⟩ := hostWrite_next n v s
  refine ⟨t, ht, ?_⟩
  obtain rfl | rfl | ⟨w, rfl⟩ | ⟨w, i, -, hw, he⟩ := presentWrite_cases (x := some (n, v)) ht
  · rfl
  · rfl
  · rw [writeDeadline_of_busy hb]
    rfl
  · obtain rfl | rfl := execEffect_command_of_busy (exec_effect_of he) (not_isEvent_of_decodeWord_cmd hw) hb <;> rfl

end Sys2Proof.Proofs
end

section
/-! PACKBYTE bit by bit (R46, R112): where every element is 0 or 1, no element is skipped, so each turn of the loop
moves every earlier element one place up. -/

namespace Sys2Proof.Proofs

open Sys2Proof.Machine

theorem packElement_of_binary (acc : Byte) {v : Byte} (h : v = 0 ∨ v = 1) : packElement acc v = acc <<< 1 ||| v :=
  if_pos h

/-- The element shifted in last is bit 0. -/
theorem packElement_getLsbD_zero (acc : Byte) {v : Byte} (h : v = 0 ∨ v = 1) :
    (packElement acc v).getLsbD 0 = true ↔ v = 1 := by
  rw [packElement_of_binary acc h]
  rcases h with rfl | rfl <;> simp

/-- What was bit `k` is bit `k + 1`. -/
theorem packElement_getLsbD_succ (acc : Byte) {v : Byte} (h : v = 0 ∨ v = 1) {k : Nat} (hk : k + 1 < 8) :
    (packElement acc v).getLsbD (k + 1) = acc.getLsbD k := by
  rw [packElement_of_binary acc h]
  have hv : v.getLsbD (k + 1) = false := by
    rcases h with rfl | rfl <;> simp [BitVec.getLsbD_one]
  rw [BitVec.getLsbD_or, BitVec.getLsbD_shiftLeft, hv]
  simp [hk]

/-- With the last element first in the list, bit `k` is element `k`. -/
theorem foldr_packElement_getLsbD (l : List Byte) (hl : ∀ v ∈ l, v = 0 ∨ v = 1) {k : Nat} (hk : k < 8) :
    (l.foldr (fun v acc => packElement acc v) 0).getLsbD k = true ↔ l[k]? = some 1 := by
  induction l generalizing k with
  | nil => simp
  | cons v l ih =>
    obtain ⟨hv, hl⟩ := List.forall_mem_cons.1 hl
    rw [List.foldr_cons]
    cases k with
    | zero => rw [packElement_getLsbD_zero _ hv, List.getElem?_cons_zero, Option.some_inj]
    | succ k =>
      rw [packElement_getLsbD_succ _ hv hk, ih hl (by omega), List.getElem?_cons_succ]

/-- Of eight elements, element `j` is bit `7 - j`. -/
theorem foldl_packElement_getLsbD (l : List Byte) (hl : ∀ v ∈ l, v = 0 ∨ v = 1) (hlen : l.length = 8) (j : Fin 8) :
    (l.foldl packElement 0).getLsbD (7 - j.val) = true ↔ l[j.val]? = some 1 := by
  have hrev : l.reverse[7 - j.val]? = l[j.val]? := by
    rw [List.getElem?_reverse (by omega)]
    congr 1
    omega
  rw [← List.foldr_reverse, foldr_packElement_getLsbD _ (by simpa using hl) (by omega), hrev]

/-- The eight elements byte `g` is packed of (R46). -/
def bitGroup (buf : Vector Byte 40) (g : Fin 5) : List Byte := (buf.toList.drop (8 * g.val)).take 8

theorem bitGroup_length (buf : Vector Byte 40) (g : Fin 5) : (bitGroup buf g).length = 8 := by
  simp only [bitGroup, List.length_take, List.length_drop, Vector.length_toList]
  omega

theorem bitGroup_getElem? (buf : Vector Byte 40) (g : Fin 5) (j : Fin 8) {k : Fin 40}
    (hk : k.val = 8 * g.val + j.val) : (bitGroup buf g)[j.val]? = some buf[k] := by
  simp [bitGroup, ← hk]

theorem mem_of_mem_bitGroup {buf : Vector Byte 40} {g : Fin 5} {v : Byte} (hv : v ∈ bitGroup buf g) : v ∈ buf :=
  Vector.mem_toList_iff.1 (List.mem_of_mem_drop (List.mem_of_mem_take hv))

theorem packFrame_getElem (buf : Vector Byte 40) (g : Fin 5) :
    (packFrame buf)[g] = (bitGroup buf g).foldl packElement 0 :=
  Vector.getElem_ofFn g.isLt

/-- Settles O38: byte `g` is the fold over its group, whose element `j` is element `8g + j` of the buffer. -/
theorem packIsMostSignificantBitFirst : Obligations.PackIsMostSignificantBitFirst := by
  intro buf hbuf g j k hk
  have hbinary : ∀ v ∈ bitGroup buf g, v = 0 ∨ v = 1 := by
    intro v hv
    obtain ⟨i, hi, rfl⟩ := Vector.getElem_of_mem (mem_of_mem_bitGroup hv)
    exact hbuf ⟨i, hi⟩
  rw [packFrame_getElem, foldl_packElement_getLsbD _ hbinary (bitGroup_length buf g) j, bitGroup_getElem? buf g j hk,
    Option.some_inj]

end Sys2Proof.Proofs
end

section
/-! A host read has no side effect (R41): no operation of a step depends on the value of the last host read or writes
it, so the read may as well be answered after the step's other inputs. -/

namespace Sys2Proof.Proofs

open Sys2Proof.Machine

/-- A part of a step that neither depends on the value of the last host read nor writes it. -/
def IgnoresReadData (f : State → Host.Outcome State Fault Refusal) : Prop :=
  ∀ (r : Option Word) (s t : State), f s = .next t → f { s with readData := r } = .next { t with readData := r }

/-! ### The operations -/

theorem packStage_with_readData (r : Option Word) (s : State) :
    packStage { s with readData := r } = { packStage s with readData := r } := by
  unfold packStage
  dsimp only
  split <;> rfl

theorem validateStage_with_readData (r : Option Word) (s : State) :
    validateStage { s with readData := r } = { validateStage s with readData := r } := by
  unfold validateStage
  dsimp only
  split <;> rfl

theorem decodeStages_with_readData (r : Option Word) (s : State) :
    decodeStages { s with readData := r } = { decodeStages s with readData := r } := by
  rw [decodeStages_eq, packStage_with_readData, validateStage_with_readData, decodeStages_eq]
  split
  · split <;> rfl
  · rfl

theorem completeRead_with_readData (r : Option Word) (s : State) :
    completeRead { s with readData := r } = { completeRead s with readData := r } := by
  unfold completeRead
  rw [decodeStages_with_readData]
  dsimp only
  cases s.opsel <;> rfl

theorem captureEdge_of_phase_A {s : State} (hp : s.phase = .A) (ts : Nanos) :
    captureEdge ts s = { s with tsA := ts, phase := .B } := by
  simp only [captureEdge, hp]

theorem captureEdge_of_phase_B {s : State} (hp : s.phase = .B) (ts : Nanos) :
    captureEdge ts s = if s.bitcnt + 1 = 40 then completeRead (captureBit (bitOf s.tsA ts) s)
      else captureBit (bitOf s.tsA ts) s := by
  simp only [captureEdge, hp]
  rfl

theorem captureEdge_with_readData (ts : Nanos) (r : Option Word) (s : State) :
    captureEdge ts { s with readData := r } = { captureEdge ts s with readData := r } := by
  obtain hp | hp : s.phase = .A ∨ s.phase = .B := by cases s.phase <;> simp
  · rw [captureEdge_of_phase_A hp, captureEdge_of_phase_A (s := { s with readData := r }) hp]
  · rw [captureEdge_of_phase_B hp, captureEdge_of_phase_B (s := { s with readData := r }) hp]
    split
    · exact completeRead_with_readData r (captureBit (bitOf s.tsA ts) s)
    · rfl

theorem faultInFlight_with_readData (k : FaultKind) (w : Word) (r : Option Word) (s : State) :
    faultInFlight k w { s with readData := r } = { faultInFlight k w s with readData := r } := by
  cases s with
  | mk fsm => cases fsm <;> rfl

/-! ### Every instruction, every presentation, one step -/

theorem ignoresReadData_next {g : State → State}
    (hg : ∀ r s, g { s with readData := r } = { g s with readData := r }) : IgnoresReadData fun s => .next (g s) := by
  rintro r s _ ⟨⟩
  exact congrArg _ (hg r s)

theorem andThen_eq_next_iff {o : Host.Outcome State Fault Refusal} {g : State → Host.Outcome State Fault Refusal}
    {t : State} : andThen o g = .next t ↔ ∃ u, o = .next u ∧ g u = .next t := by
  cases o <;> simp [andThen]

theorem ignoresReadData_andThen {f g : State → Host.Outcome State Fault Refusal} (hf : IgnoresReadData f)
    (hg : IgnoresReadData g) : IgnoresReadData fun s => andThen (f s) g := by
  intro r s t h
  obtain ⟨u, hu, ht⟩ := andThen_eq_next_iff.1 h
  exact andThen_eq_next_iff.2 ⟨_, hf r s u hu, hg r u t ht⟩

theorem ignoresReadData_acceptCmd {flag : State → Bool} {rule : State → State}
    (hflag : ∀ r s, flag { s with readData := r } = flag s)
    (hrule : ∀ r s, rule { s with readData := r } = { rule s with readData := r }) :
    IgnoresReadData fun s => acceptCmd (flag s) rule s := by
  intro r s t h
  dsimp only [acceptCmd] at h ⊢
  rw [busy_of_fsm (t := { s with readData := r }) (s := s) rfl, hflag, hrule]
  split_ifs at h ⊢ <;> cases h <;> rfl

theorem ignoresReadData_exec (i : Instr) : IgnoresReadData (exec i) := by
  cases i with
  | nop => exact ignoresReadData_next fun _ _ => rfl
  | read | readEnv | clear | pushBit | assemble | altScale =>
    exact ignoresReadData_acceptCmd (fun _ _ => rfl) fun _ _ => rfl
  | pack => exact ignoresReadData_acceptCmd (fun _ _ => rfl) packStage_with_readData
  | validate => exact ignoresReadData_acceptCmd (fun _ _ => rfl) validateStage_with_readData
  | decode => exact ignoresReadData_acceptCmd (fun _ _ => rfl) decodeStages_with_readData
  | edge d ts =>
    rintro r ⟨fsm⟩ t h
    cases fsm with
    | awaitingAck => cases d <;> cases h <;> rfl
    | collectingBits => cases h; exact congrArg _ (captureEdge_with_readData ts r _)
    | _ => cases h; rfl
  | endOfStream =>
    rintro r ⟨fsm⟩ t h
    cases fsm <;> cases h <;> rfl
  | lineError w => exact ignoresReadData_next (faultInFlight_with_readData .hardware w)
  | holdDone =>
    rintro r ⟨fsm⟩ t h
    cases fsm <;> cases h <;> rfl
  | deadline => exact ignoresReadData_next (faultInFlight_with_readData .timeout 0)

theorem ignoresReadData_presentTimer (c : BitVec 1) (b : Bool) : IgnoresReadData (presentTimer c b) := by
  cases b with
  | false => exact ignoresReadData_next fun _ _ => rfl
  | true => exact ignoresReadData_exec (decodeTimer c)

theorem ignoresReadData_presentLine (x : Option LineWord) : IgnoresReadData (presentLine x) := by
  cases x with
  | none => exact ignoresReadData_next fun _ _ => rfl
  | some e =>
    unfold presentLine
    dsimp only
    cases decodeWord (.line e) with
    | ok i => exact ignoresReadData_exec i
    | error _ => exact ignoresReadData_next fun _ _ => rfl

theorem writeDeadline_with_readData (v : Word) (r : Option Word) (s : State) :
    writeDeadline v { s with readData := r } = { writeDeadline v s with readData := r } := by
  cases s with
  | mk fsm => cases fsm <;> rfl

theorem ignoresReadData_hostWrite (n : Nat) (v : Word) : IgnoresReadData (hostWrite n v) := by
  unfold hostWrite
  split
  case h_1 =>
    unfold execCmd
    cases decodeWord (.cmd v) with
    | ok i => exact ignoresReadData_exec i
    | error _ => exact ignoresReadData_next fun _ _ => rfl
  case h_2 => exact ignoresReadData_next (writeDeadline_with_readData v)
  case h_3 => exact ignoresReadData_next fun _ _ => rfl

theorem ignoresReadData_presentWrite (x : Option (Nat × Word)) : IgnoresReadData (presentWrite x) := by
  cases x with
  | none => exact ignoresReadData_next fun _ _ => rfl
  | some x => exact ignoresReadData_hostWrite x.1 x.2

/-- The read of a step, answered after its other inputs with the value of the state before it. -/
theorem takeInput_with_hostRead (inp : StepInput) (n : Nat) (s : State) :
    ∃ t, takeInput { inp with hostRead := none } s = .next t ∧
      takeInput { inp with hostRead := some n } s = .next { t with readData := some (hostRead n s) } := by
  rcases takeInput_cases { inp with hostRead := none } s with ⟨hreset, h⟩ | ⟨hreset, -, -, -, t, -, -, -, -, h⟩
  · exact ⟨_, h, if_pos hreset⟩
  · have hignores := ignoresReadData_andThen (ignoresReadData_presentTimer 1 (deadlinePresent inp s)) <|
      ignoresReadData_andThen (ignoresReadData_presentLine inp.lineEvent) <|
      ignoresReadData_andThen (ignoresReadData_presentTimer 0 (holdPresent inp s))
        (ignoresReadData_presentWrite inp.hostWrite)
    have hreset' : ¬ inp.reset = true := Bool.eq_false_iff.1 hreset
    exact ⟨t, h, (if_neg hreset').trans (hignores _ s t ((if_neg hreset').symm.trans h))⟩

/-- CMD and every number beyond BITS9 read 0 (R43). -/
theorem hostRead_unmapped {n : Nat} (hn : n = 0 ∨ 26 ≤ n) (s : State) : hostRead n s = 0 := by
  obtain rfl | hn := hn
  · rfl
  · unfold hostRead
    split
    case h_17 => exact if_neg (by omega)
    all_goals omega

/-- Settles O12: the other inputs of the step go the same way whatever value was read last, and the value read is that
of the state before them. -/
theorem hostReadHasNoSideEffect : Obligations.HostReadHasNoSideEffect := by
  intro s inp rest n
  refine ⟨?_, fun hn => hostRead_unmapped hn s⟩
  rw [step_of_inputs_cons rfl, step_of_inputs_cons rfl]
  exact takeInput_with_hostRead inp n { s with inputs := rest, now := inp.now }

end Sys2Proof.Proofs
end

section
/-! The words of the three ports as their fields put side by side (R63, R65), and what a mask leaves of each field. -/

namespace Sys2Proof.Proofs

open Sys2Proof.Machine

/-! ### Command words -/

@[simp] theorem opField_cmdWord (op : BitVec 4) (arg : Byte) : opField (cmdWord op arg) = op :=
  BitVec.extractLsb'_append_eq_right

@[simp] theorem argField_cmdWord (op : BitVec 4) (arg : Byte) : argField (cmdWord op arg) = arg := by
  refine (BitVec.extractLsb'_append_eq_of_le (by decide)).trans ?_
  refine (BitVec.extractLsb'_append_eq_of_le (by decide)).trans ?_
  exact BitVec.extractLsb'_append_eq_right

theorem reservedFieldsZero_iff (w : Word) :
    reservedFieldsZero w = true ↔ w.extractLsb' 4 4 = 0 ∧ w.extractLsb' 16 16 = 0 := by
  simp [reservedFieldsZero]

@[simp] theorem reservedFieldsZero_cmdWord (op : BitVec 4) (arg : Byte) :
    reservedFieldsZero (cmdWord op arg) = true := by
  refine (reservedFieldsZero_iff _).2 ⟨?_, ?_⟩ <;>
    refine (BitVec.extractLsb'_append_eq_of_le (by decide)).trans ?_
  · exact BitVec.extractLsb'_append_eq_right
  · refine (BitVec.extractLsb'_append_eq_of_le (by decide)).trans ?_
    exact BitVec.extractLsb'_append_eq_left

/-- With the reserved bits zero a command word is its OP and its ARG (R63). -/
theorem eq_cmdWord_of_reservedFieldsZero {w : Word} (h : reservedFieldsZero w = true) :
    w = cmdWord (opField w) (argField w) := by
  obtain ⟨hlow, hhigh⟩ := (reservedFieldsZero_iff w).1 h
  rw [cmdWord, ← hlow, ← hhigh, argField, opField,
    BitVec.extractLsb'_append_extractLsb'_eq_extractLsb' (show 16 = 8 + 8 from rfl),
    BitVec.extractLsb'_append_extractLsb'_eq_extractLsb' (show 8 = 4 + 4 from rfl),
    BitVec.extractLsb'_append_extractLsb'_eq_extractLsb' (show 4 = 0 + 4 from rfl)]
  exact BitVec.extractLsb'_eq_self.symm

theorem opField_and_mask (w : Word) : opField (w &&& 0xFFFF00FF) = opField w :=
  BitVec.extractLsb'_and.trans BitVec.and_allOnes

theorem argField_and_mask (w : Word) : argField (w &&& 0xFFFF00FF) = 0 :=
  BitVec.extractLsb'_and.trans BitVec.and_zero

theorem reservedFieldsZero_and_mask (w : Word) : reservedFieldsZero (w &&& 0xFFFF00FF) = reservedFieldsZero w := by
  have hlow : (w &&& 0xFFFF00FF).extractLsb' 4 4 = w.extractLsb' 4 4 :=
    BitVec.extractLsb'_and.trans BitVec.and_allOnes
  have hhigh : (w &&& 0xFFFF00FF).extractLsb' 16 16 = w.extractLsb' 16 16 :=
    BitVec.extractLsb'_and.trans BitVec.and_allOnes
  rw [reservedFieldsZero, hlow, hhigh, reservedFieldsZero]

/-- The mask of R63 takes ARG away and nothing else. -/
theorem and_mask_eq_cmdWord {w : Word} (h : reservedFieldsZero w = true) :
    w &&& 0xFFFF00FF = cmdWord (opField w) 0 := by
  rw [eq_cmdWord_of_reservedFieldsZero ((reservedFieldsZero_and_mask w).trans h), opField_and_mask,
    argField_and_mask]

theorem fields_of_and_mask_eq {w : Word} {op : BitVec 4} (h : w &&& 0xFFFF00FF = cmdWord op 0) :
    reservedFieldsZero w = true ∧ opField w = op := by
  rw [← reservedFieldsZero_and_mask, ← opField_and_mask, h]
  exact ⟨reservedFieldsZero_cmdWord op 0, opField_cmdWord op 0⟩

theorem cmdWord_zero_toNat (op : BitVec 4) : (cmdWord op 0).toNat = op.toNat := by
  rw [cmdWord, toNat_append_eq_add]
  exact Nat.zero_add _

/-! ### Line-event words -/

@[simp] theorem tsField_lineWord (p : BitVec 64) (d : BitVec 1) (k : BitVec 2) : tsField (lineWord p d k) = p := by
  refine (BitVec.extractLsb'_append_eq_of_le (by decide)).trans ?_
  refine (BitVec.extractLsb'_append_eq_of_le (by decide)).trans ?_
  exact BitVec.extractLsb'_append_eq_left

@[simp] theorem dirField_lineWord (p : BitVec 64) (dir : EdgeDir) (k : BitVec 2) :
    dirField (lineWord p dir.bit k) = dir := by
  have hbit : (lineWord p dir.bit k).getLsbD 2 = dir.bit.getLsbD 0 :=
    BitVec.getLsbD_append.trans BitVec.getLsbD_append
  rw [dirField, hbit]
  cases dir <;> rfl

/-- CODE is the low half of PAYLOAD (R65). -/
theorem codeField_eq_setWidth_tsField (e : LineWord) : codeField e = (tsField e).setWidth 32 := by
  rw [tsField, BitVec.setWidth_extractLsb'_of_le (by decide), codeField]

@[simp] theorem codeField_lineWord (code : Word) (d : BitVec 1) (k : BitVec 2) :
    codeField (lineWord (code.setWidth 64) d k) = code := by
  rw [codeField_eq_setWidth_tsField, tsField_lineWord, BitVec.setWidth_setWidth_of_le _ (by decide), BitVec.setWidth_eq]

theorem dirField_bit (e : LineWord) : (dirField e).bit = e.extractLsb' 2 1 := by
  have hbit : (e.extractLsb' 2 1).getLsbD 0 = e.getLsbD 2 := by simp
  rw [dirField, ← hbit]
  generalize e.extractLsb' 2 1 = d
  revert d
  decide

/-- With bit 3 zero a line-event word is its PAYLOAD, DIR and KIND (R65). -/
theorem eq_lineWord_of_bit_three {e : LineWord} (h : e.extractLsb' 3 1 = 0) :
    e = lineWord (tsField e) (e.extractLsb' 2 1) (e.extractLsb' 0 2) := by
  rw [lineWord, ← h, tsField,
    BitVec.extractLsb'_append_extractLsb'_eq_extractLsb' (show 4 = 3 + 1 from rfl),
    BitVec.extractLsb'_append_extractLsb'_eq_extractLsb' (show 3 = 2 + 1 from rfl),
    BitVec.extractLsb'_append_extractLsb'_eq_extractLsb' (show 2 = 0 + 2 from rfl)]
  exact BitVec.extractLsb'_eq_self.symm

end Sys2Proof.Proofs
end

section
/-! The decoder and the encoder (R63 to R66, R70): what each reads off the fields of a word. -/

namespace Sys2Proof.Proofs

open Sys2Proof.Machine

/-! ### Format H -/

/-- A word the decoder accepts has its reserved bits zero, a defined OP, and an ARG that is an operand of PUSHBIT alone
(R63, R64). -/
theorem fields_of_decodeCmd {w : Word} {i : Instr} (h : decodeCmd w = .ok i) :
    reservedFieldsZero w = true ∧ (opField w).toNat ≤ 9 ∧
      encodeWord i = .cmd (cmdWord (opField w) (if opField w = 4 then argField w else 0)) := by
  unfold decodeCmd at h
  split at h
  case isFalse => cases h
  case isTrue hz =>
    generalize opField w = op at h ⊢
    split at h <;> cases h
    all_goals
      rename_i hop
      obtain ⟨-, rfl⟩ := BitVec.toNat_eq_nat.1 hop
      exact ⟨hz, by decide, rfl⟩

theorem exists_decodeCmd_iff (w : Word) :
    (∃ i, decodeCmd w = .ok i) ↔ reservedFieldsZero w = true ∧ (opField w).toNat ≤ 9 := by
  constructor
  · rintro ⟨i, hi⟩
    obtain ⟨hz, hop, -⟩ := fields_of_decodeCmd hi
    exact ⟨hz, hop⟩
  · rintro ⟨hz, hop⟩
    rw [decodeCmd, if_pos hz]
    generalize (opField w).toNat = n at hop
    interval_cases n <;> exact ⟨_, rfl⟩

/-- ARG, which the mask takes away, is read by PUSHBIT alone (R70 d). -/
theorem decodeCmd_and_mask {w : Word} (hop : opField w ≠ 4) : decodeCmd (w &&& 0xFFFF00FF) = decodeCmd w := by
  have hn : (opField w).toNat ≠ 4 := fun h => hop (BitVec.eq_of_toNat_eq h)
  unfold decodeCmd
  rw [reservedFieldsZero_and_mask, opField_and_mask]
  split
  case isFalse => rfl
  case isTrue =>
    generalize (opField w).toNat = n at hn
    split
    case h_5 => exact absurd rfl hn
    all_goals rfl

/-- A decoded command re-encodes to the word without the bits it ignores (R70 d). -/
theorem encodeWord_of_decodeCmd {w : Word} {i : Instr} (h : decodeCmd w = .ok i) :
    encodeWord i = (PortWord.cmd w).canonical := by
  obtain ⟨hz, -, henc⟩ := fields_of_decodeCmd h
  rw [henc, PortWord.canonical]
  by_cases hop : opField w = 4
  · rw [if_pos hop, if_pos (beq_iff_eq.2 hop), ← eq_cmdWord_of_reservedFieldsZero hz]
  · rw [if_neg hop, if_neg (mt beq_iff_eq.1 hop), and_mask_eq_cmdWord hz]

/-! ### Format L -/

theorem kind_cases (e : LineWord) :
    e.extractLsb' 0 2 = 0 ∨ e.extractLsb' 0 2 = 1 ∨ e.extractLsb' 0 2 = 2 ∨ e.extractLsb' 0 2 = 3 := by
  generalize e.extractLsb' 0 2 = k
  revert k
  decide

theorem decodeLine_of_kind_zero {e : LineWord} (h : e.extractLsb' 0 2 = 0) :
    decodeLine e = .ok (.edge (dirField e) (tsField e)) := by
  rw [decodeLine, h]
  rfl

theorem decodeLine_of_kind_one {e : LineWord} (h : e.extractLsb' 0 2 = 1) : decodeLine e = .ok .endOfStream := by
  rw [decodeLine, h]
  rfl

theorem decodeLine_of_kind_two {e : LineWord} (h : e.extractLsb' 0 2 = 2) :
    decodeLine e = .ok (.lineError (codeField e)) := by
  rw [decodeLine, h]
  rfl

theorem decodeLine_of_kind_three {e : LineWord} (h : e.extractLsb' 0 2 = 3) :
    decodeLine e = .error .reservedKind := by
  rw [decodeLine, h]
  rfl

theorem exists_decodeLine_iff (e : LineWord) : (∃ i, decodeLine e = .ok i) ↔ e.extractLsb' 0 2 ≠ 3 := by
  rcases kind_cases e with hk | hk | hk | hk
  · exact iff_of_true ⟨_, decodeLine_of_kind_zero hk⟩ (by rw [hk]; decide)
  · exact iff_of_true ⟨_, decodeLine_of_kind_one hk⟩ (by rw [hk]; decide)
  · exact iff_of_true ⟨_, decodeLine_of_kind_two hk⟩ (by rw [hk]; decide)
  · refine iff_of_false ?_ (absurd hk)
    rintro ⟨i, hi⟩
    cases (decodeLine_of_kind_three hk).symm.trans hi

/-- Under a mask with bit 3 zero a line-event word is its masked fields. -/
theorem and_eq_lineWord (e m : LineWord) (hm : m.extractLsb' 3 1 = 0) :
    e &&& m = lineWord (tsField e &&& tsField m) ((dirField e).bit &&& m.extractLsb' 2 1)
      (e.extractLsb' 0 2 &&& m.extractLsb' 0 2) := by
  have hbit : (e &&& m).extractLsb' 3 1 = 0 := by
    rw [BitVec.extractLsb'_and, hm]
    exact BitVec.and_zero
  rw [eq_lineWord_of_bit_three hbit, tsField, BitVec.extractLsb'_and, BitVec.extractLsb'_and, BitVec.extractLsb'_and,
    dirField_bit, tsField, tsField]

/-- EDGE ignores bit 3 (R70 c). -/
theorem canonical_line_of_kind_zero {e : LineWord} (h : e.extractLsb' 0 2 = 0) :
    (PortWord.line e).canonical = .line (lineWord (tsField e) (dirField e).bit 0) := by
  simp only [PortWord.canonical, h]
  refine congrArg PortWord.line ((and_eq_lineWord e 0xFFFFFFFFFFFFFFFF7 rfl).trans ?_)
  rw [h]
  exact congrArg₂ (lineWord · · 0) BitVec.and_allOnes BitVec.and_allOnes

/-- END ignores everything but KIND (R70 c). -/
theorem canonical_line_of_kind_one {e : LineWord} (h : e.extractLsb' 0 2 = 1) :
    (PortWord.line e).canonical = .line (lineWord 0 0 1) := by
  simp only [PortWord.canonical, h]
  refine congrArg PortWord.line ((and_eq_lineWord e 0x3 rfl).trans ?_)
  rw [h]
  exact congrArg₂ (lineWord · · 1) BitVec.and_zero BitVec.and_zero

/-- ERROR ignores DIR, bit 3 and the high half of PAYLOAD (R70 c). -/
theorem canonical_line_of_kind_two {e : LineWord} (h : e.extractLsb' 0 2 = 2) :
    (PortWord.line e).canonical = .line (lineWord ((codeField e).setWidth 64) 0 2) := by
  have hcode : tsField e &&& (BitVec.allOnes 32).setWidth 64 = (codeField e).setWidth 64 := by
    rw [codeField_eq_setWidth_tsField]
    exact (BitVec.and_setWidth_allOnes 32 32 _).trans (BitVec.setWidth_eq_append (by decide)).symm
  simp only [PortWord.canonical, h]
  refine congrArg PortWord.line ((and_eq_lineWord e 0x00000000FFFFFFFF3 rfl).trans ?_)
  rw [h]
  exact congrArg₂ (lineWord · · 2) hcode BitVec.and_zero

theorem canonical_line_of_kind_three {e : LineWord} (h : e.extractLsb' 0 2 = 3) :
    (PortWord.line e).canonical = .line e := by
  simp only [PortWord.canonical, h]
  rfl

/-- A decoded line event re-encodes to the word without the bits it ignores (R70 c). -/
theorem encodeWord_of_decodeLine {e : LineWord} {i : Instr} (h : decodeLine e = .ok i) :
    encodeWord i = (PortWord.line e).canonical := by
  rcases kind_cases e with hk | hk | hk | hk
  · cases (decodeLine_of_kind_zero hk).symm.trans h
    exact (canonical_line_of_kind_zero hk).symm
  · cases (decodeLine_of_kind_one hk).symm.trans h
    exact (canonical_line_of_kind_one hk).symm
  · cases (decodeLine_of_kind_two hk).symm.trans h
    exact (canonical_line_of_kind_two hk).symm
  · cases (decodeLine_of_kind_three hk).symm.trans h

/-! ### Every port -/

theorem encodeWord_of_decodeTimer (c : BitVec 1) : encodeWord (decodeTimer c) = .timer c := by
  revert c
  decide

theorem encodeWord_of_decodeWord {p : PortWord} {i : Instr} (h : decodeWord p = .ok i) :
    encodeWord i = p.canonical := by
  cases p with
  | cmd w => exact encodeWord_of_decodeCmd h
  | line e => exact encodeWord_of_decodeLine h
  | timer c =>
    cases h
    exact encodeWord_of_decodeTimer c

/-- Where the decoder rejects a word it rejects the word without its ignored bits for the same reason. -/
theorem decodeWord_canonical_of_error {p : PortWord} {r : DecodeReject} (h : decodeWord p = .error r) :
    decodeWord p.canonical = .error r := by
  cases p with
  | cmd w =>
    rw [PortWord.canonical]
    by_cases hop : opField w = 4
    · rwa [if_pos (beq_iff_eq.2 hop)]
    · rw [if_neg (mt beq_iff_eq.1 hop)]
      exact (decodeCmd_and_mask hop).trans h
  | line e =>
    have hk : e.extractLsb' 0 2 = 3 := by
      by_contra hn
      obtain ⟨i, hi⟩ := (exists_decodeLine_iff e).2 hn
      cases hi.symm.trans h
    rwa [canonical_line_of_kind_three hk]
  | timer c => cases h

/-- Settles O1: each field of the word is read back from the place the encoder put it at. -/
theorem decodeEncodeRoundTrip : Obligations.DecodeEncodeRoundTrip := by
  intro i
  cases i with
  | pushBit arg =>
    simp only [encodeWord, decodeWord, decodeCmd, reservedFieldsZero_cmdWord, opField_cmdWord, argField_cmdWord]
    rfl
  | edge dir ts =>
    refine (decodeLine_of_kind_zero (Laws.EncodeWf.lineWord_kind ts dir.bit 0)).trans ?_
    rw [dirField_lineWord, tsField_lineWord]
  | lineError code =>
    refine (decodeLine_of_kind_two (Laws.EncodeWf.lineWord_kind (code.setWidth 64) 0 2)).trans ?_
    rw [codeField_lineWord]
  | _ => rfl

/-- Settles O2: a word that decodes re-encodes canonically, so its canonical form decodes as an encoding does. -/
theorem decodedWordReencodesCanonically : Obligations.DecodedWordReencodesCanonically := by
  refine fun p => ⟨?_, fun i => encodeWord_of_decodeWord⟩
  cases h : decodeWord p with
  | ok i => rw [← encodeWord_of_decodeWord h, decodeEncodeRoundTrip i]
  | error r => exact decodeWord_canonical_of_error h

/-- Settles O6: the two checks of a command word, KIND of a line-event word, and nothing for a timer code. -/
theorem decoderRejectsExactlyReservedWords : Obligations.DecoderRejectsExactlyReservedWords := by
  intro p
  cases p with
  | cmd w =>
    rw [PortWord.wellFormed, Bool.and_eq_true, opDefined, decide_eq_true_iff]
    exact (exists_decodeCmd_iff w).symm
  | line e =>
    rw [PortWord.wellFormed, kindDefined, bne_iff_ne]
    exact (exists_decodeLine_iff e).symm
  | timer c => exact iff_of_true rfl ⟨_, rfl⟩

/-! ### The words by their masks and by arithmetic -/

/-- A word that matches the encoding of `i`, which is not a PUSHBIT, under the mask decodes to `i` (R63, R64). -/
theorem decodeWord_cmd_of_and_mask {w m : Word} {i : Instr} (h : w &&& 0xFFFF00FF = m) (hi : encodeWord i = .cmd m)
    (hop : opField m ≠ 4) : decodeWord (.cmd w) = .ok i := by
  subst h
  rw [opField_and_mask] at hop
  have hm : decodeWord (.cmd (w &&& 0xFFFF00FF)) = .ok i := hi ▸ decodeEncodeRoundTrip i
  exact (decodeCmd_and_mask hop).symm.trans hm

theorem argField_eq_ofNat (w : Word) : argField w = BitVec.ofNat 8 (w.toNat / 256) :=
  congrArg (BitVec.ofNat 8) (Nat.shiftRight_eq_div_pow w.toNat 8)

/-- PUSHBIT alone takes ARG, bits 15:8, from the word (R63). -/
theorem decodeWord_cmd_of_and_mask_eq_four {w : Word} (h : w &&& 0xFFFF00FF = 4) :
    decodeWord (.cmd w) = .ok (.pushBit (BitVec.ofNat 8 (w.toNat / 256))) := by
  obtain ⟨hz, hop⟩ := fields_of_and_mask_eq (op := 4) h
  rw [decodeWord, decodeCmd, if_pos hz, hop, ← argField_eq_ofNat]
  rfl

/-- Above 9 under the mask stands a reserved encoding (R70 a). -/
theorem exists_error_of_and_mask {w : Word} (h : 9 < (w &&& 0xFFFF00FF).toNat) :
    ∃ r, decodeWord (.cmd w) = .error r := by
  cases hd : decodeWord (.cmd w) with
  | error r => exact ⟨r, rfl⟩
  | ok i =>
    obtain ⟨hz, hop, -⟩ := fields_of_decodeCmd hd
    rw [and_mask_eq_cmdWord hz, cmdWord_zero_toNat] at h
    omega

/-- Settles O3: a word decodes as what is left of it under the mask, but for the ARG of a PUSHBIT. -/
theorem commandWordsDecodeByMask : Obligations.CommandWordsDecodeByMask := by
  refine fun w => ⟨?_, ?_, ?_, ?_, decodeWord_cmd_of_and_mask_eq_four, ?_, ?_, ?_, ?_, ?_, fun h => ?_⟩
  case refine_10 =>
    obtain ⟨r, hr⟩ := exists_error_of_and_mask h
    exact ⟨⟨r, hr⟩, hostWrite_cmd_of_error hr⟩
  all_goals exact fun h => decodeWord_cmd_of_and_mask h rfl (by decide)

theorem kind_of_mod_four {e : LineWord} {n : Nat} (h : e.toNat % 4 = n) : e.extractLsb' 0 2 = BitVec.ofNat 2 n := by
  subst h
  exact BitVec.eq_of_toNat_eq (by simp)

theorem tsField_toNat (e : LineWord) : (tsField e).toNat = e.toNat / 16 := by
  rw [tsField, BitVec.extractLsb'_toNat, Nat.shiftRight_eq_div_pow]
  exact Nat.mod_eq_of_lt (by omega)

theorem codeField_toNat (e : LineWord) : (codeField e).toNat = e.toNat / 16 % 2 ^ 32 := by
  rw [codeField, BitVec.extractLsb'_toNat, Nat.shiftRight_eq_div_pow]

theorem dirField_eq_rising_iff (e : LineWord) : dirField e = .rising ↔ e.toNat / 4 % 2 = 1 := by
  have hbit : e.getLsbD 2 = true ↔ e.toNat / 4 % 2 = 1 := by
    rw [BitVec.getLsbD, Nat.testBit_eq_decide_div_mod_eq, decide_eq_true_iff]
  rw [← hbit, dirField]
  cases e.getLsbD 2 <;> decide

/-- Settles O4: KIND is the word modulo 4, and each operand the quotient its place makes it. -/
theorem lineWordsDecodeByKind : Obligations.LineWordsDecodeByKind := by
  refine fun e => ⟨fun h => ?_, fun h => decodeLine_of_kind_one (kind_of_mod_four h), fun h => ?_, fun h s => ?_⟩
  · exact ⟨_, _, decodeLine_of_kind_zero (kind_of_mod_four h), tsField_toNat e, dirField_eq_rising_iff e⟩
  · exact ⟨_, decodeLine_of_kind_two (kind_of_mod_four h), codeField_toNat e⟩
  · simp only [presentLine, decodeWord, decodeLine_of_kind_three (kind_of_mod_four h)]

/-- Settles O5: the printed words that stand for an instruction are encodings; of the three reserved ones the first has
OP 0xA, and the others a reserved bit set. -/
theorem printedWordsDecode : Obligations.PrintedWordsDecode :=
  ⟨decodeEncodeRoundTrip .nop, decodeEncodeRoundTrip .readEnv, decodeEncodeRoundTrip (.pushBit 1),
    decodeEncodeRoundTrip .altScale, rfl, rfl, rfl, decodeEncodeRoundTrip (.edge .falling 1000),
    decodeEncodeRoundTrip (.edge .rising 1000), decodeEncodeRoundTrip (.lineError 0x13),
    decodeEncodeRoundTrip .endOfStream, decodeEncodeRoundTrip .holdDone, decodeEncodeRoundTrip .deadline⟩

end Sys2Proof.Proofs
end

section
/-! READENV from the pulses on the wire to the frame (R61, R62, R84, R85, R131): a run of edges captures one bit per
pair, the 40th bit completes the read, and the 40 bits that spell five bytes are packed back into them. -/

namespace Sys2Proof.Proofs

open Sys2Proof.Machine

/-! ### The bits of a frame -/

/-- Settles O39: PACK gives a frame whose bits, place by place, are the elements of the buffer. -/
theorem everyFrameHasItsBits : Obligations.EveryFrameHasItsBits := by
  intro fr buf hbits
  have hbinary : ∀ k : Fin 40, buf[k] = 0 ∨ buf[k] = 1 := by
    intro k
    rw [hbits ⟨k.val / 8, by omega⟩ ⟨k.val % 8, by omega⟩ k (by dsimp only; omega)]
    split
    · exact .inr rfl
    · exact .inl rfl
  have hpack (g : Fin 5) (j : Fin 8) : (packFrame buf)[g].getLsbD (7 - j.val) = fr[g].getLsbD (7 - j.val) := by
    have hk : (⟨8 * g.val + j.val, by omega⟩ : Fin 40).val = 8 * g.val + j.val := rfl
    rw [Bool.eq_iff_iff, packIsMostSignificantBitFirst buf hbinary g j _ hk, hbits g j _ hk]
    simp
  refine Vector.ext fun g hg => BitVec.eq_of_getLsbD_eq fun b hb => ?_
  have h := hpack ⟨g, hg⟩ ⟨7 - b, by omega⟩
  rwa [show 7 - (7 - b) = b by omega] at h

/-! ### Runs of edges -/

/-- The edges of a list as instructions. -/
def edgeInstrs (es : List (EdgeDir × Nanos)) : List Instr := es.map fun e => .edge e.1 e.2

/-- Running one list of instructions after another (R49). -/
theorem execAll_append (is js : List Instr) (s : State) :
    execAll (is ++ js) s = andThen (execAll is s) (execAll js) := by
  induction is generalizing s with
  | nil => rfl
  | cons i is ih =>
    obtain ⟨t, ht⟩ := exec_next i s
    simp only [List.cons_append, execAll, ht, andThen_next, ih]

/-- A pair of edges is one bit (R84), and the 40th bit completes the read (R85). -/
theorem execAll_pair {s : State} (hf : s.fsm = .collectingBits) (hp : s.phase = .A) (x y : EdgeDir × Nanos) :
    execAll (edgeInstrs [x, y]) s = .next
      (if s.bitcnt + 1 = 40 then completeRead (captureBit (bitOf x.2 y.2) { s with tsA := x.2 })
        else captureBit (bitOf x.2 y.2) { s with tsA := x.2 }) := by
  have hx : exec (.edge x.1 x.2) s = .next { s with tsA := x.2, phase := .B } := by
    simp only [exec, execEdge, hf, captureEdge_of_phase_A hp]
  have hy : exec (.edge y.1 y.2) { s with tsA := x.2, phase := .B } =
      .next (captureEdge y.2 { s with tsA := x.2, phase := .B }) := by
    simp only [exec, execEdge, hf]
  simp only [edgeInstrs, List.map_cons, List.map_nil, execAll, hx, hy, andThen_next]
  exact congrArg _ (captureEdge_of_phase_B rfl y.2)

/-- `t` is `s` with the intervals of the pairs of `es` captured into the elements from 0 on, one bit each (R84). -/
structure CapturedPairs (s : State) (es : List (EdgeDir × Nanos)) (t : State) : Prop where
  count : t.bitcnt.toNat = es.length / 2
  element : ∀ (k : Fin 40) (x y : EdgeDir × Nanos), es[2 * k.val]? = some x → es[2 * k.val + 1]? = some y →
    t.bitbuf[k] = bitOf x.2 y.2
  beyond : ∀ k : Fin 40, es.length / 2 ≤ k.val → t.bitbuf[k] = s.bitbuf[k]
  frame : t = { s with bitcnt := t.bitcnt, phase := .A, tsA := t.tsA, bitbuf := t.bitbuf }

theorem capturedPairs_nil {s : State} (hp : s.phase = .A) (hc : s.bitcnt = 0) : CapturedPairs s [] s where
  count := by rw [hc]; rfl
  element := nofun
  beyond _ _ := rfl
  frame := by rw [← hp]

/-- One more pair is one more element. -/
theorem capturedPairs_append_pair {s t : State} {es : List (EdgeDir × Nanos)} {n : Nat} (h : CapturedPairs s es t)
    (hlen : es.length = 2 * n) (hn : n < 40) (x y : EdgeDir × Nanos) :
    CapturedPairs s (es ++ [x, y]) (captureBit (bitOf x.2 y.2) { t with tsA := x.2 }) where
  count := by
    have hc := h.count
    simp only [captureBit_bitcnt, List.length_append, List.length_cons, List.length_nil]
    bv_omega
  element k x' y' hx hy := by
    have hc : t.bitcnt.toNat = n := by have := h.count; omega
    rw [captureBit_bitbuf]
    rcases lt_trichotomy k.val n with hk | hk | hk
    · rw [List.getElem?_append_left (by omega)] at hx hy
      rw [if_neg (by dsimp only; omega)]
      exact h.element k x' y' hx hy
    · rw [List.getElem?_append_right (by omega)] at hx hy
      rw [if_pos (by dsimp only; omega)]
      obtain ⟨rfl, rfl⟩ : x = x' ∧ y = y' := by simpa [hlen, hk] using And.intro hx hy
      rfl
    · rw [List.getElem?_eq_none (by simp; omega)] at hx
      cases hx
  beyond k hk := by
    have hc := h.count
    simp only [List.length_append, List.length_cons, List.length_nil] at hk
    rw [captureBit_bitbuf, if_neg (by dsimp only; omega)]
    exact h.beyond k (by omega)
  frame := (congrArg (fun u => captureBit (bitOf x.2 y.2) { u with tsA := x.2 }) h.frame).trans rfl

/-- A list of `2 (n + 1)` elements ends in a pair. -/
theorem exists_append_pair {α : Type} {l : List α} {n : Nat} (h : l.length = 2 * (n + 1)) :
    ∃ l' x y, l'.length = 2 * n ∧ l = l' ++ [x, y] := by
  have hdrop : (l.drop (2 * n)).length = 2 := by rw [List.length_drop]; omega
  obtain ⟨x, y, hxy⟩ := List.length_eq_two.1 hdrop
  exact ⟨l.take (2 * n), x, y, List.length_take_of_le (by omega), by rw [← hxy, List.take_append_drop]⟩

/-- After a run of pairs that are captured, one more pair is captured too, and if it is the 40th completes the read. -/
theorem execAll_append_pair {s t : State} {es : List (EdgeDir × Nanos)} (hf : s.fsm = .collectingBits)
    (ht : execAll (edgeInstrs es) s = .next t) (h : CapturedPairs s es t) (x y : EdgeDir × Nanos) :
    execAll (edgeInstrs (es ++ [x, y])) s = .next
      (if t.bitcnt + 1 = 40 then completeRead (captureBit (bitOf x.2 y.2) { t with tsA := x.2 })
        else captureBit (bitOf x.2 y.2) { t with tsA := x.2 }) := by
  have htf : t.fsm = .collectingBits := (congrArg State.fsm h.frame).trans hf
  have htp : t.phase = .A := congrArg State.phase h.frame
  have happend : edgeInstrs (es ++ [x, y]) = edgeInstrs es ++ edgeInstrs [x, y] := List.map_append
  rw [happend, execAll_append, ht, andThen_next, execAll_pair htf htp]

/-- At most 39 pairs leave the read in flight, with one bit captured of each (R91). -/
theorem execAll_pairs {s : State} (hf : s.fsm = .collectingBits) (hp : s.phase = .A) (hc : s.bitcnt = 0) {n : Nat}
    (hn : n ≤ 39) {es : List (EdgeDir × Nanos)} (hlen : es.length = 2 * n) :
    ∃ t, execAll (edgeInstrs es) s = .next t ∧ CapturedPairs s es t := by
  induction n generalizing es with
  | zero =>
    cases List.eq_nil_of_length_eq_zero hlen
    exact ⟨s, rfl, capturedPairs_nil hp hc⟩
  | succ n ih =>
    obtain ⟨es, x, y, hlen', rfl⟩ := exists_append_pair hlen
    obtain ⟨t, ht, hcap⟩ := ih (by omega) hlen'
    have hcount := hcap.count
    refine ⟨_, (execAll_append_pair hf ht hcap x y).trans ?_, capturedPairs_append_pair hcap hlen' (by omega) x y⟩
    rw [if_neg (by bv_omega)]

/-- The 80 edges after the acknowledgment complete the read with the 40 bits of their pairs (R85, R91). -/
theorem execAll_forty_pairs {s : State} (hf : s.fsm = .collectingBits) (hp : s.phase = .A) (hc : s.bitcnt = 0)
    {es : List (EdgeDir × Nanos)} (hlen : es.length = 80) :
    ∃ u, execAll (edgeInstrs es) s = .next (completeRead u) ∧ CapturedPairs s es u := by
  obtain ⟨es, x, y, hlen', rfl⟩ := exists_append_pair (n := 39) hlen
  obtain ⟨t, ht, hcap⟩ := execAll_pairs hf hp hc le_rfl hlen'
  have hcount := hcap.count
  refine ⟨_, (execAll_append_pair hf ht hcap x y).trans ?_, capturedPairs_append_pair hcap hlen' (by omega) x y⟩
  rw [if_pos (by bv_omega)]

/-- BITOF in the arithmetic of the natural numbers (R86). -/
theorem bitOf_eq_ite (a b : Nanos) :
    bitOf a b = if (b.toNat + (2 ^ 64 - a.toNat)) % 2 ^ 64 < 40000 then 0 else 1 := by
  have hsub : b - a < Config.threshNs ↔ (b.toNat + (2 ^ 64 - a.toNat)) % 2 ^ 64 < 40000 := by
    rw [BitVec.lt_def, BitVec.toNat_sub, Nat.add_comm]
    rfl
  simp only [bitOf, hsub]

/-! ### READENV -/

/-- The state in which the edges of the frame arrive: READENV was accepted in `s`, the hold has elapsed, and the sensor
has acknowledged (R81, R83, R131). -/
def envCollecting (s : State) : State :=
  { accepted (startRead .readEnv s) with line := .edgeIn, fsm := .collectingBits }

theorem execAll_readEnv_ack {s : State} (hb : s.busy = false) (a : Nanos) (is : List Instr) :
    execAll (.readEnv :: .holdDone :: .edge .falling a :: is) s = execAll is (envCollecting s) := by
  have hread : exec .readEnv s = .next (accepted (startRead .readEnv s)) := by
    simp only [exec, execReadEnv, acceptCmd, hb]
    rfl
  simp only [execAll, hread, andThen_next]
  rfl

theorem completeRead_of_readEnv {u : State} (ho : u.opsel = .readEnv) :
    completeRead u = { decodeStages u with fsm := if (decodeStages u).rdy then .complete else .faulted } := by
  rcases completeRead_cases u with ⟨hr, -⟩ | ⟨-, h⟩
  · cases ho.symm.trans hr
  · exact h

/-- 40 bits that make a frame with a matching checksum complete the READENV (R85, R113, R114). -/
theorem completeRead_of_checksum_eq {u : State} (ho : u.opsel = .readEnv) (hc : u.bitcnt = 40)
    (hsum : checksum (packFrame u.bitbuf) = (packFrame u.bitbuf)[4]) :
    completeRead u = { u with
      frame := packFrame u.bitbuf, frameV := true, chkV := true, altV := false, rdy := true
      humRaw := humRawOf (packFrame u.bitbuf), tempRaw := tempRawOf (packFrame u.bitbuf)
      humF := tenths u.params.floatFmt (humRawOf (packFrame u.bitbuf))
      tempF := tenths u.params.floatFmt (tempRawOf (packFrame u.bitbuf)), fsm := .complete } := by
  rcases decodeStages_cases u with ⟨hn, -⟩ | ⟨-, hn, -⟩ | ⟨-, -, hd⟩
  · exact absurd hc hn
  · exact absurd hsum hn
  · rw [completeRead_of_readEnv ho, hd]
    rfl

/-- With any other checksum the READENV ends in Faulted with BadChecksum (R85, R113). -/
theorem completeRead_of_checksum_ne {u : State} (ho : u.opsel = .readEnv) (hc : u.bitcnt = 40)
    (hsum : checksum (packFrame u.bitbuf) ≠ (packFrame u.bitbuf)[4]) :
    completeRead u = { u with
      frame := packFrame u.bitbuf, frameV := true, rdy := false, altV := false, chkV := false
      fltV := true, fltKind := .decode, fltSub := 1, fltClass := .conversion, hwerr := 0, fsm := .faulted } := by
  rcases decodeStages_cases u with ⟨hn, -⟩ | ⟨-, -, hd⟩ | ⟨-, hn, -⟩
  · exact absurd hc hn
  · rw [completeRead_of_readEnv ho, hd]
    rfl
  · exact absurd hn hsum

/-- Settles O33: the edges capture 40 bits, which PACK makes the frame of, and the framer's stages end as the checksum
of that frame says. -/
theorem readEnvDecodesTheFrameOnTheWire : Obligations.ReadEnvDecodesTheFrameOnTheWire := by
  intro s a es fr sum hb hlen hbits hsum
  subst hsum
  obtain ⟨u, hu, hcap⟩ := execAll_forty_pairs (s := envCollecting s) rfl rfl rfl hlen
  have hcount : u.bitcnt = 40 := BitVec.eq_of_toNat_eq (by rw [hcap.count, hlen]; rfl)
  have hopsel : u.opsel = .readEnv := congrArg State.opsel hcap.frame
  have hpack : packFrame u.bitbuf = fr := by
    refine everyFrameHasItsBits fr u.bitbuf fun g j k hk => ?_
    have hx : es[2 * k.val]? = some es[2 * k.val] := List.getElem?_eq_getElem _
    have hy : es[2 * k.val + 1]? = some es[2 * k.val + 1] := List.getElem?_eq_getElem _
    rw [hcap.element k _ _ hx hy, bitOf_eq_ite, if_congr (hbits g j k.val _ _ hk hx hy) rfl rfl]
    cases fr[g].getLsbD (7 - j.val) <;> rfl
  subst hpack
  refine ⟨completeRead u, (execAll_readEnv_ack hb a _).trans hu, ?_⟩
  by_cases h : checksum (packFrame u.bitbuf) = (packFrame u.bitbuf)[4]
  · rw [completeRead_of_checksum_eq hopsel hcount h]
    exact ⟨rfl, hcount, congrArg State.line hcap.frame,
      fun _ => ⟨rfl, rfl, congrArg State.fltV hcap.frame, humRawOf_toNat _, tempRawOf_toNat _⟩,
      fun hn => absurd ((checksum_eq_iff _).1 h) hn⟩
  · rw [completeRead_of_checksum_ne hopsel hcount h]
    exact ⟨rfl, hcount, congrArg State.line hcap.frame,
      fun hs => absurd ((checksum_eq_iff _).2 hs) h,
      fun _ => ⟨rfl, rfl, rfl, rfl, rfl, rfl, congrArg State.humRaw hcap.frame,
        congrArg State.tempRaw hcap.frame⟩⟩

end Sys2Proof.Proofs
end

section
/-! What each event of a read does (spec/40_driver.md), an equation for each state it can find: the steps of a read in
flight, the faults that end it, and the drops of R90. -/

namespace Sys2Proof.Proofs

open Sys2Proof.Machine

variable {s : State}

/-! ### START -/

theorem acceptCmd_of_busy (hb : s.busy = true) (flag : Bool) (rule : State → State) :
    acceptCmd flag rule s = .next (refuse s) := if_pos hb

theorem acceptCmd_of_not_busy (hb : s.busy = false) (rule : State → State) :
    acceptCmd true rule s = .next (accepted (rule s)) := if_neg (by simp [hb])

/-- Settles O20: READ is the command that needs no flag and whose rule is START(0). -/
theorem readStartsARead : Obligations.ReadStartsARead :=
  ⟨decodeEncodeRoundTrip .read, fun _ =>
    ⟨fun hb => acceptCmd_of_busy hb true (startRead .read), fun hb => acceptCmd_of_not_busy hb (startRead .read)⟩⟩

/-! ### HOLD_DONE -/

theorem exec_holdDone_of_startPulseSent (hf : s.fsm = .startPulseSent) :
    exec .holdDone s = .next { s with line := .edgeIn, fsm := .awaitingAck } := by
  simp only [exec, execHoldDone, hf]

theorem exec_holdDone_of_ne_startPulseSent (hf : s.fsm ≠ .startPulseSent) : exec .holdDone s = .next s := by
  simp only [exec, execHoldDone]
  split
  case h_1 h => exact absurd h hf
  all_goals rfl

/-- Settles O22: the start pulse is the one state that awaits HOLD_DONE. -/
theorem holdDoneOpensTheStream : Obligations.HoldDoneOpensTheStream :=
  fun _ => ⟨exec_holdDone_of_startPulseSent, exec_holdDone_of_ne_startPulseSent⟩

/-! ### EDGE and END -/

theorem streamOpen_eq_false_iff (s : State) :
    s.streamOpen = false ↔ ¬(s.fsm = .awaitingAck ∨ s.fsm = .collectingBits) := by
  rw [← streamOpen_iff, Bool.not_eq_true]

theorem exec_edge_of_awaitingAck (hf : s.fsm = .awaitingAck) (dir : EdgeDir) (ts : Nanos) :
    exec (.edge dir ts) s = .next (ackCheck dir s) := by
  simp only [exec, execEdge, hf]

theorem exec_edge_of_collectingBits (hf : s.fsm = .collectingBits) (dir : EdgeDir) (ts : Nanos) :
    exec (.edge dir ts) s = .next (captureEdge ts s) := by
  simp only [exec, execEdge, hf]

theorem exec_edge_of_stream_closed (ho : s.streamOpen = false) (dir : EdgeDir) (ts : Nanos) :
    exec (.edge dir ts) s = .next s := by
  have hf := (streamOpen_eq_false_iff s).1 ho
  simp only [exec, execEdge]
  split
  case h_1 h => exact absurd (.inl h) hf
  case h_2 h => exact absurd (.inr h) hf
  all_goals rfl

theorem exec_endOfStream_of_streamOpen (ho : s.streamOpen = true) :
    exec .endOfStream s = .next (raiseFault .protocol subBadRead .sensor 0 true s) := if_pos ho

theorem exec_endOfStream_of_stream_closed (ho : s.streamOpen = false) : exec .endOfStream s = .next s :=
  if_neg (by simp [ho])

/-- Settles O24: of the acknowledgment edge only the direction is looked at. -/
theorem acknowledgmentMustBeFalling : Obligations.AcknowledgmentMustBeFalling :=
  fun _ ts hf => ⟨exec_edge_of_awaitingAck hf .falling ts, exec_edge_of_awaitingAck hf .rising ts⟩

/-- Settles O28: END is awaited exactly while the stream is open. -/
theorem endOfStreamIsBadRead : Obligations.EndOfStreamIsBadRead :=
  fun s => ⟨fun hf => exec_endOfStream_of_streamOpen ((streamOpen_iff s).2 hf),
    fun hf => exec_endOfStream_of_stream_closed ((streamOpen_eq_false_iff s).2 hf)⟩

/-! ### ERROR and DEADLINE -/

theorem faultInFlight_of_startPulseSent (hf : s.fsm = .startPulseSent) (k : FaultKind) (w : Word) :
    faultInFlight k w s = { raiseFault k subNone .sensor w true s with line := .unclaimed } := by
  simp only [faultInFlight, hf]

theorem faultInFlight_of_streamOpen (hf : s.fsm = .awaitingAck ∨ s.fsm = .collectingBits) (k : FaultKind) (w : Word) :
    faultInFlight k w s = raiseFault k subNone .sensor w true s := by
  rcases hf with hf | hf <;> simp only [faultInFlight, hf]

theorem faultInFlight_of_not_busy (hb : s.busy = false) (k : FaultKind) (w : Word) : faultInFlight k w s = s := by
  rcases (not_busy_iff s).1 hb with hf | hf | hf <;> simp only [faultInFlight, hf]

/-- A fault ends the read, and releases the line from the start pulse alone (R88, R89). -/
theorem faultInFlight_of_busy (hb : s.busy = true) (k : FaultKind) (w : Word) :
    faultInFlight k w s = { raiseFault k subNone .sensor w true s with
      line := if s.fsm = .startPulseSent then .unclaimed else s.line } := by
  rcases (busy_iff s).1 hb with hf | hf
  · rw [faultInFlight_of_startPulseSent hf, if_pos hf]
  · rw [faultInFlight_of_streamOpen hf, if_neg (by rcases hf with hf | hf <;> simp [hf])]
    rfl

/-- Settles O29: ERROR is the Hardware fault with the device's code. -/
theorem lineErrorIsAHardwareFault : Obligations.LineErrorIsAHardwareFault :=
  fun _ code => ⟨fun hf => congrArg _ (faultInFlight_of_startPulseSent hf .hardware code),
    fun hf => congrArg _ (faultInFlight_of_streamOpen hf .hardware code),
    fun hb => congrArg _ (faultInFlight_of_not_busy hb .hardware code)⟩

/-- Settles O30: DEADLINE is the Timeout fault. -/
theorem deadlineIsATimeoutFault : Obligations.DeadlineIsATimeoutFault :=
  fun _ => ⟨fun hf => congrArg _ (faultInFlight_of_startPulseSent hf .timeout 0),
    fun hf => congrArg _ (faultInFlight_of_streamOpen hf .timeout 0),
    fun hb => congrArg _ (faultInFlight_of_not_busy hb .timeout 0)⟩

/-! ### The drops -/

theorem stream_closed_of_not_busy (hb : s.busy = false) : s.streamOpen = false :=
  Bool.eq_false_iff.2 fun ho => of_busy_of_not_busy hb (busy_of_streamOpen ho)

/-- Outside a read no event is awaited (R90). -/
theorem exec_event_of_not_busy (hb : s.busy = false) {i : Instr} (hi : isEvent i = true) : exec i s = .next s := by
  have hclosed := stream_closed_of_not_busy hb
  cases i with
  | edge dir ts => exact exec_edge_of_stream_closed hclosed dir ts
  | endOfStream => exact exec_endOfStream_of_stream_closed hclosed
  | lineError code => exact congrArg _ (faultInFlight_of_not_busy hb .hardware code)
  | holdDone => exact exec_holdDone_of_ne_startPulseSent fun hf => of_busy_of_not_busy hb ((busy_iff s).2 (.inl hf))
  | deadline => exact congrArg _ (faultInFlight_of_not_busy hb .timeout 0)
  | _ => exact nomatch hi

/-- Settles O23: an edge and END are dropped while the stream is closed, every event outside a read. -/
theorem unawaitedEventsAreDropped : Obligations.UnawaitedEventsAreDropped := by
  refine fun s dir ts code => ⟨fun ha hc => ?_, fun hb => ?_⟩
  · have hclosed := (streamOpen_eq_false_iff s).2 (not_or.2 ⟨ha, hc⟩)
    exact ⟨exec_edge_of_stream_closed hclosed dir ts, exec_endOfStream_of_stream_closed hclosed⟩
  · exact ⟨exec_event_of_not_busy hb rfl, exec_event_of_not_busy hb rfl, exec_event_of_not_busy hb rfl⟩

end Sys2Proof.Proofs
end

section
/-! One step as a whole: it always answers (R90), and the one at or past the deadline ends the read, since DEADLINE
comes before the line event and what comes after it finds no read in flight (R161, R167). -/

namespace Sys2Proof.Proofs

open Sys2Proof.Machine

variable {s : State}

/-- Settles O10: with no input the step answers the state itself; with one, a reset and four presentations all answer
a next state. -/
theorem stepNeverStops : Obligations.StepNeverStops := by
  intro s
  cases hin : s.inputs with
  | nil => exact ⟨s, step_of_inputs_nil hin⟩
  | cons inp rest =>
    rw [step_of_inputs_cons hin]
    rcases takeInput_cases inp { s with inputs := rest, now := inp.now } with
      ⟨-, h⟩ | ⟨-, -, -, -, t, -, -, -, -, h⟩
    · exact ⟨_, h⟩
    · exact ⟨t, h⟩

/-- A line-event word stands for an event, never for a command (R60). -/
theorem isEvent_of_decodeWord_line {e : LineWord} {i : Instr} (h : decodeWord (.line e) = .ok i) :
    isEvent i = true := by
  simp only [decodeWord, decodeLine] at h
  split at h <;> cases h <;> rfl

theorem isEvent_decodeTimer (c : BitVec 1) : isEvent (decodeTimer c) = true := by
  unfold decodeTimer
  split <;> rfl

theorem presentLine_of_not_busy (hb : s.busy = false) (x : Option LineWord) : presentLine x s = .next s := by
  obtain ⟨t, ht⟩ := presentLine_next x s
  rcases presentLine_cases ht with rfl | ⟨e, i, -, hw, he⟩
  · exact ht
  · rw [ht, ← he, exec_event_of_not_busy hb (isEvent_of_decodeWord_line hw)]

theorem presentTimer_of_not_busy (hb : s.busy = false) (c : BitVec 1) (b : Bool) : presentTimer c b s = .next s := by
  cases b with
  | false => rfl
  | true => exact exec_event_of_not_busy hb (isEvent_decodeTimer c)

/-- The time since START modulo 2^64 in the arithmetic of the natural numbers (R8, R24). -/
theorem elapsed_toNat (now t0 : Nanos) : (now - t0).toNat = (now.toNat + (2 ^ 64 - t0.toNat)) % 2 ^ 64 := by
  rw [BitVec.toNat_sub, Nat.add_comm]

theorem deadlineFires_iff (now : Nanos) (s : State) :
    deadlineFires now s = true ↔
      s.busy = true ∧ s.deadline.toNat ≤ (now.toNat + (2 ^ 64 - s.t0.toNat)) % 2 ^ 64 := by
  rw [deadlineFires, Bool.and_eq_true, decide_eq_true_iff, BitVec.le_def, elapsed_toNat,
    BitVec.toNat_setWidth_of_le (by omega)]

/-- A step with DEADLINE present and no host write is the Timeout fault alone. -/
theorem takeInput_of_deadlinePresent {inp : StepInput} (hreset : inp.reset = false) (hwrite : inp.hostWrite = none)
    (hd : deadlinePresent inp s = true) (hb : s.busy = true) :
    takeInput inp s = .next (faultInFlight .timeout 0 (answerRead inp.hostRead s)) := by
  obtain ⟨r, hread⟩ := answerRead_eq inp.hostRead s
  have hended : (faultInFlight .timeout 0 (answerRead inp.hostRead s)).busy = false := by
    rw [hread, faultInFlight_of_busy (s := { s with readData := r }) hb]
    rfl
  have hdeadline : presentTimer 1 true (answerRead inp.hostRead s) =
      .next (faultInFlight .timeout 0 (answerRead inp.hostRead s)) := rfl
  simp only [takeInput, hreset, Bool.false_eq_true, if_false, hd, hdeadline, andThen_next,
    presentLine_of_not_busy hended, presentTimer_of_not_busy hended, hwrite, presentWrite]

/-- Settles O19: DEADLINE is present in the step, and its fault ends the read before the line event is looked at. -/
theorem readEndsByTheDeadline : Obligations.ReadEndsByTheDeadline := by
  intro s inp rest hin htimed hreset hwrite hb helapsed
  have hd : deadlinePresent inp { s with inputs := rest, now := inp.now } = true := by
    rw [deadlinePresent, htimed]
    exact (deadlineFires_iff inp.now { s with inputs := rest, now := inp.now }).2 ⟨hb, helapsed⟩
  obtain ⟨r, hread⟩ := answerRead_eq inp.hostRead { s with inputs := rest, now := inp.now }
  refine ⟨_, (step_of_inputs_cons hin).trans (takeInput_of_deadlinePresent hreset hwrite hd hb), ?_⟩
  rw [hread, faultInFlight_of_busy (s := { s with inputs := rest, now := inp.now, readData := r }) hb]
  rfl

end Sys2Proof.Proofs
end

section
/-! The capture of the bits of a read (R84 to R86): one pair of edges, the 40th bit, and a whole run of edges, whose
complete pairs are captured and whose odd last edge, if there is one, is stamped (R91). -/

namespace Sys2Proof.Proofs

open Sys2Proof.Machine

variable {s t : State} {es : List (EdgeDir × Nanos)}

/-- Settles O27: BITOF stated in natural numbers, on either side of the threshold. -/
theorem bitOfIsTheThreshold : Obligations.BitOfIsTheThreshold :=
  fun a b => ⟨fun h => (bitOf_eq_ite a b).trans (if_pos h), fun h => (bitOf_eq_ite a b).trans (if_neg h.not_gt)⟩

/-! ### One edge -/

theorem exec_edge_of_phase_A (hf : s.fsm = .collectingBits) (hp : s.phase = .A) (dir : EdgeDir) (ts : Nanos) :
    exec (.edge dir ts) s = .next { s with tsA := ts, phase := .B } := by
  rw [exec_edge_of_collectingBits hf, captureEdge_of_phase_A hp]

theorem exec_edge_of_phase_B (hf : s.fsm = .collectingBits) (hp : s.phase = .B) (dir : EdgeDir) (ts : Nanos) :
    exec (.edge dir ts) s = .next (if s.bitcnt + 1 = 40 then completeRead (captureBit (bitOf s.tsA ts) s)
      else captureBit (bitOf s.tsA ts) s) := by
  rw [exec_edge_of_collectingBits hf, captureEdge_of_phase_B hp]

/-- The captured bit stands at index BITCNT, by the threshold (R84, R86). -/
theorem captureBit_bitOf_bitbuf (a ts : Nanos) (s : State) (k : Fin 40) :
    (captureBit (bitOf a ts) s).bitbuf[k] =
      if k.val = s.bitcnt.toNat then (if (ts.toNat + (2 ^ 64 - a.toNat)) % 2 ^ 64 < 40000 then 0 else 1)
      else s.bitbuf[k] := by
  rw [captureBit_bitbuf, bitOf_eq_ite]

/-- Settles O25: the first edge of a pair is stamped, and the second captures a bit that is not the 40th. -/
theorem pairOfEdgesBecomesOneBit : Obligations.PairOfEdgesBecomesOneBit := by
  refine fun s dir ts hf => ⟨fun hp => exec_edge_of_phase_A hf hp dir ts, fun hp hlt => ?_⟩
  refine ⟨captureBit (bitOf s.tsA ts) s, ?_, rfl, ?_, captureBit_bitOf_bitbuf s.tsA ts s⟩
  · rw [exec_edge_of_phase_B hf hp, if_neg (by bv_omega)]
  · rw [captureBit_bitcnt]
    bv_omega

/-! ### The 40th bit -/

theorem completeRead_of_read (ho : s.opsel = .read) : completeRead s = { s with fsm := .complete } := by
  rcases completeRead_cases s with ⟨-, h⟩ | ⟨he, -⟩
  · exact h
  · cases ho.symm.trans he

theorem decodeStages_rej (s : State) : (decodeStages s).rej = s.rej := by
  obtain ⟨-, -, -, -, -, -, -, hrej, -⟩ := decodeStages_keep s
  exact hrej

/-- The completion of a READENV is what the command DECODE makes of the state, but for STATE and REJ (R85, R115). -/
theorem completeRead_eq_exec_decode (ho : s.opsel = .readEnv) :
    ∃ d, exec .decode { s with fsm := .idle } = .next d ∧
      completeRead s = { d with fsm := if d.rdy = true then .complete else .faulted, rej := s.rej } := by
  have hdecode : exec .decode { s with fsm := .idle } = .next (accepted { decodeStages s with fsm := .idle }) := by
    rw [← decodeStages_with_fsm]
    exact acceptCmd_of_not_busy (s := { s with fsm := .idle }) rfl decodeStages
  refine ⟨_, hdecode, ?_⟩
  rw [completeRead_of_readEnv ho, ← decodeStages_rej s]
  rfl

/-- Settles O26: the second edge of the 40th pair captures a bit and completes the read; READENV's completion is the
framer's pipeline, which the command DECODE runs too, and which neither reads nor writes STATE. -/
theorem fortiethBitCompletesTheRead : Obligations.FortiethBitCompletesTheRead := by
  intro s dir ts hf hp hc
  have hlast : s.bitcnt + 1 = 40 := by rw [hc]; rfl
  have hexec : exec (.edge dir ts) s = .next (completeRead (captureBit (bitOf s.tsA ts) s)) := by
    rw [exec_edge_of_phase_B hf hp, if_pos hlast]
  refine ⟨captureBit (bitOf s.tsA ts) s, ?_, fun k => ?_, fun ho => ?_, fun ho => ?_⟩
  · rw [← hlast]
    rfl
  · rw [captureBit_bitOf_bitbuf, hc]
    rfl
  · exact hexec.trans (congrArg _ (completeRead_of_read ho))
  · obtain ⟨d, hd, hcomplete⟩ := completeRead_eq_exec_decode (s := captureBit (bitOf s.tsA ts) s) ho
    exact ⟨d, hd, hexec.trans (congrArg _ hcomplete)⟩

/-! ### A run of edges -/

/-- An odd last edge captures no bit. -/
theorem capturedPairs_append_edge (h : CapturedPairs s es t) {n : Nat} (hlen : es.length = 2 * n)
    (x : EdgeDir × Nanos) : CapturedPairs s (es ++ [x]) t where
  count := by rw [h.count, List.length_append, List.length_singleton]; omega
  element k x' y' hx hy := by
    have hlt : 2 * k.val + 1 < es.length := by
      have := (List.getElem?_eq_some_iff.1 hy).1
      simp only [List.length_append, List.length_singleton] at this
      omega
    rw [List.getElem?_append_left (by omega)] at hx hy
    exact h.element k x' y' hx hy
  beyond k hk := h.beyond k (by simp only [List.length_append, List.length_singleton] at hk; omega)
  frame := h.frame

/-- After a run of pairs that are captured, one more edge is stamped (R84). -/
theorem execAll_append_edge (hf : s.fsm = .collectingBits) (ht : execAll (edgeInstrs es) s = .next t)
    (h : CapturedPairs s es t) (x : EdgeDir × Nanos) :
    execAll (edgeInstrs (es ++ [x])) s = .next { t with tsA := x.2, phase := .B } := by
  have htf : t.fsm = .collectingBits := (congrArg State.fsm h.frame).trans hf
  have htp : t.phase = .A := congrArg State.phase h.frame
  have happend : edgeInstrs (es ++ [x]) = edgeInstrs es ++ [.edge x.1 x.2] := List.map_append
  rw [happend, execAll_append, ht, andThen_next, execAll, exec_edge_of_phase_A htf htp, andThen_next, execAll]

/-- At most 79 edges leave the read in flight, with a bit of each complete pair and PHASE the parity (R91). -/
theorem execAll_edges (hf : s.fsm = .collectingBits) (hp : s.phase = .A) (hc : s.bitcnt = 0) (hlen : es.length ≤ 79) :
    ∃ u ts p, execAll (edgeInstrs es) s = .next { u with tsA := ts, phase := p } ∧ CapturedPairs s es u ∧
      p.code.toNat = es.length % 2 := by
  rcases Nat.even_or_odd' es.length with ⟨n, hn | hn⟩
  · obtain ⟨u, hu, hcap⟩ := execAll_pairs hf hp hc (n := n) (by omega) hn
    have hup : u.phase = .A := congrArg State.phase hcap.frame
    exact ⟨u, u.tsA, .A, hu.trans (by rw [← hup]), hcap, by rw [hn, Nat.mul_mod_right]; rfl⟩
  · obtain rfl | ⟨es, x, rfl⟩ := es.eq_nil_or_concat'
    · cases hn
    · have hpairs : es.length = 2 * n := by rw [List.length_append] at hn; exact Nat.succ.inj hn
      obtain ⟨u, hu, hcap⟩ := execAll_pairs hf hp hc (by omega) hpairs
      exact ⟨u, x.2, .B, execAll_append_edge hf hu hcap x, capturedPairs_append_edge hcap hpairs x,
        by rw [hn, Nat.mul_add_mod]; rfl⟩

/-- The acknowledgment opens the run (R83). -/
theorem execAll_ack (hf : s.fsm = .awaitingAck) (a : Nanos) (is : List Instr) :
    execAll (.edge .falling a :: is) s = execAll is { s with fsm := .collectingBits } := by
  rw [execAll, exec_edge_of_awaitingAck hf, andThen_next, ackCheck]

theorem edgesConsumed_of_collectingBits (hf : s.fsm = .collectingBits) :
    edgesConsumed s = 1 + 2 * s.bitcnt.toNat + s.phase.code.toNat := by
  simp only [edgesConsumed, hf]

/-- Settles O31: after the acknowledgment, by halves and parity of the number of edges. -/
theorem edgesAreConsumedInPairs : Obligations.EdgesAreConsumedInPairs := by
  intro s a es hf hc hp hlen
  obtain ⟨u, ts, p, hu, hcap, hpar⟩ := execAll_edges (s := { s with fsm := .collectingBits }) rfl hp hc hlen
  have huf : u.fsm = .collectingBits := congrArg State.fsm hcap.frame
  refine ⟨_, (execAll_ack hf a _).trans hu, huf, hcap.count, hpar, ?_, hcap.element, hcap.beyond, ?_⟩
  · rw [edgesConsumed_of_collectingBits (s := { u with tsA := ts, phase := p }) huf, hpar]
    have hcount := hcap.count
    dsimp only
    omega
  · exact (congrArg (fun v : State => { v with tsA := ts, phase := p }) hcap.frame).trans rfl

/-- Settles O32: the 40 pairs after the acknowledgment are captured, and the completion of a READ writes STATE alone. -/
theorem eightyOneEdgesCompleteARead : Obligations.EightyOneEdgesCompleteARead := by
  intro s a es hf hc hp ho hlen
  obtain ⟨u, hu, hcap⟩ := execAll_forty_pairs (s := { s with fsm := .collectingBits }) rfl hp hc hlen
  have hcount : u.bitcnt = 40 := BitVec.eq_of_toNat_eq (by rw [hcap.count, hlen]; rfl)
  rw [completeRead_of_read ((congrArg State.opsel hcap.frame).trans ho)] at hu
  refine ⟨_, (execAll_ack hf a _).trans hu, fun k x y hx hy => ?_, ?_⟩
  · rw [← bitOf_eq_ite]
    exact hcap.element k x y hx hy
  · rw [← hcount]
    exact (congrArg (fun v : State => { v with fsm := .complete }) hcap.frame).trans rfl

end Sys2Proof.Proofs
end

section
/-! The framer's commands (spec/41_framer.md): PACK, VALIDATE, ASSEMBLE, DECODE and ALTSCALE, each refused or accepted by
the flag it needs, and then the outcomes of its stage. -/

namespace Sys2Proof.Proofs

open Sys2Proof.Machine

variable {s : State}

/-- A command without its flag is refused, as is any command while BUSY (R130). -/
theorem acceptCmd_of_refused {flag : Bool} (h : s.busy = true ∨ flag = false) (rule : State → State) :
    acceptCmd flag rule s = .next (refuse s) := by
  rcases h with hb | rfl
  · exact acceptCmd_of_busy hb flag rule
  · simp [acceptCmd]

theorem acceptCmd_of_accepted (hb : s.busy = false) {flag : Bool} (hf : flag = true) (rule : State → State) :
    acceptCmd flag rule s = .next (accepted (rule s)) := hf ▸ acceptCmd_of_not_busy hb rule

/-! ### PACK -/

theorem packStage_of_bitcnt_ne (h : s.bitcnt ≠ 40) :
    packStage s = { s with
      chkV := false, rdy := false, altV := false, frameV := false, fltV := true, fltKind := .decode
      fltSub := 0, fltClass := .conversion, hwerr := 0 } :=
  (packStage_cases s).elim And.right fun hc => absurd hc.1 h

theorem packStage_of_bitcnt_eq (h : s.bitcnt = 40) :
    packStage s = { s with
      chkV := false, rdy := false, altV := false, frameV := true, frame := packFrame s.bitbuf } :=
  (packStage_cases s).elim (fun hc => absurd h hc.1) And.right

theorem exec_pack_of_not_busy (hb : s.busy = false) : exec .pack s = .next (accepted (packStage s)) :=
  acceptCmd_of_not_busy hb packStage

/-- Settles O36: PACK needs no flag, and its stage has one outcome for the length 40 and one for every other. -/
theorem packChecksTheLength : Obligations.PackChecksTheLength := by
  refine ⟨decodeEncodeRoundTrip .pack, fun s => ⟨fun hb => acceptCmd_of_busy hb true packStage, fun hb hc => ?_,
    fun hb hc => ⟨_, exec_pack_of_not_busy hb, ?_, fun g => ?_⟩⟩⟩
  · rw [exec_pack_of_not_busy hb, packStage_of_bitcnt_ne hc]
    rfl
  · rw [packStage_of_bitcnt_eq hc]
    rfl
  · rw [packStage_of_bitcnt_eq hc]
    exact packFrame_getElem s.bitbuf g

/-! ### VALIDATE -/

theorem validateStage_of_checksum_eq (h : checksum s.frame = s.frame[4]) :
    validateStage s = { s with rdy := false, altV := false, chkV := true } :=
  (validateStage_cases s).elim And.right fun hc => absurd h hc.1

theorem validateStage_of_checksum_ne (h : checksum s.frame ≠ s.frame[4]) :
    validateStage s = { s with
      rdy := false, altV := false, chkV := false, fltV := true, fltKind := .decode, fltSub := 1
      fltClass := .conversion, hwerr := 0 } :=
  (validateStage_cases s).elim (fun hc => absurd hc.1 h) And.right

theorem exec_validate_of_frameV (hb : s.busy = false) (hf : s.frameV = true) :
    exec .validate s = .next (accepted (validateStage s)) := acceptCmd_of_accepted hb hf validateStage

/-- Settles O40: VALIDATE needs FRAME_V, and its stage has one outcome for a matching sum and one for any other. -/
theorem validateComparesTheChecksum : Obligations.ValidateComparesTheChecksum := by
  refine ⟨decodeEncodeRoundTrip .validate, fun s sum hsum =>
    ⟨fun hr => acceptCmd_of_refused hr validateStage, fun hb hf hc => ?_, fun hb hf hc => ?_⟩⟩
  · rw [exec_validate_of_frameV hb hf, validateStage_of_checksum_eq ((checksum_eq_iff s.frame).2 (hsum ▸ hc))]
    rfl
  · rw [exec_validate_of_frameV hb hf, validateStage_of_checksum_ne (mt (checksum_eq_iff s.frame).1 (hsum ▸ hc))]
    rfl

/-! ### ASSEMBLE -/

/-- Settles O41: ASSEMBLE needs CHK_V, and its stage is one record update, the raw values big-endian. -/
theorem assembleBuildsTheReading : Obligations.AssembleBuildsTheReading :=
  ⟨decodeEncodeRoundTrip .assemble, fun s =>
    ⟨fun hr => acceptCmd_of_refused hr assembleStage, fun hb hc =>
      ⟨_, acceptCmd_of_accepted hb hc assembleStage, humRawOf_toNat s.frame, tempRawOf_toNat s.frame, rfl⟩⟩⟩

/-! ### DECODE -/

/-! The later stages of the pipeline neither read nor write REJ. -/

theorem accepted_validateStage_accepted (s : State) :
    accepted (validateStage (accepted s)) = accepted (validateStage s) := by
  by_cases h : checksum s.frame = s.frame[4]
  · rw [validateStage_of_checksum_eq h, validateStage_of_checksum_eq (s := accepted s) h]
    rfl
  · rw [validateStage_of_checksum_ne h, validateStage_of_checksum_ne (s := accepted s) h]
    rfl

theorem accepted_assembleStage_accepted (s : State) :
    accepted (assembleStage (accepted s)) = accepted (assembleStage s) := rfl

/-- Settles O42: the pipeline is its stages one after the other, and the REJ write of a stage that is a command of its
own is the one DECODE ends with. -/
theorem decodeIsTheThreeStages : Obligations.DecodeIsTheThreeStages := by
  refine ⟨decodeEncodeRoundTrip .decode, fun s => ⟨fun hb => acceptCmd_of_busy hb true decodeStages, fun hb => ?_⟩⟩
  have hbp : (accepted (packStage s)).busy = false := (packStage_busy s).trans hb
  have hbv : (accepted (validateStage (packStage s))).busy = false := (validateStage_busy _).trans hbp
  have hdecode : exec .decode s = .next (accepted (decodeStages s)) := acceptCmd_of_not_busy hb decodeStages
  rw [hdecode, decodeStages_eq]
  refine ⟨_, exec_pack_of_not_busy hb, fun hf => by rw [if_neg (by simpa using hf)], fun hf =>
    ⟨accepted (validateStage (packStage s)), ?_, fun hc => ?_, fun hc =>
      ⟨accepted (assembleStage (validateStage (packStage s))), ?_, ?_, rfl⟩⟩⟩
  · rw [← accepted_validateStage_accepted]
    exact exec_validate_of_frameV hbp hf
  · rw [if_pos (by simpa using hf), if_neg (by simpa using hc)]
  · rw [← accepted_assembleStage_accepted]
    exact acceptCmd_of_accepted hbv hc assembleStage
  · rw [if_pos (by simpa using hf), if_pos (by simpa using hc)]

/-! ### ALTSCALE -/

/-- Settles O43: ALTSCALE needs RDY, and its stage is one record update. -/
theorem altScaleIsUnfused : Obligations.AltScaleIsUnfused :=
  ⟨decodeEncodeRoundTrip .altScale, fun _ =>
    ⟨fun hr => acceptCmd_of_refused hr altScaleStage, fun hb hr => acceptCmd_of_accepted hb hr altScaleStage⟩⟩

end Sys2Proof.Proofs
end

section
/-! PACKBYTE as a number (R112): eight turns of its loop lose no bit, so the byte is the number its binary elements
spell. -/

namespace Sys2Proof.Proofs

open Sys2Proof.Machine

theorem packElement_of_not_binary (acc : Byte) {v : Byte} (h : ¬(v = 0 ∨ v = 1)) : packElement acc v = acc :=
  if_neg h

/-- A turn of the loop on a binary element doubles the number and adds the element, while that fits the byte. -/
theorem packElement_toNat (acc : Byte) {v : Byte} (h : v = 0 ∨ v = 1) (hfit : acc.toNat < 128) :
    (packElement acc v).toNat = 2 * acc.toNat + v.toNat := by
  have hv : v.toNat < 2 ^ 1 := by rcases h with rfl | rfl <;> decide
  have hshift : (acc <<< 1).toNat = acc.toNat <<< 1 := by
    rw [BitVec.toNat_shiftLeft, Nat.shiftLeft_eq, Nat.mod_eq_of_lt (by omega)]
  rw [packElement_of_binary acc h, BitVec.toNat_or, hshift, ← Nat.shiftLeft_add_eq_or_of_lt hv, Nat.shiftLeft_eq]
  omega

/-- The loop over so many elements that the byte has a place for each. -/
theorem foldl_packElement_toNat (l : List Byte) (acc : Byte) (hfit : (acc.toNat + 1) * 2 ^ l.length ≤ 256) :
    (l.foldl packElement acc).toNat =
      (l.filter fun v => v == 0 || v == 1).foldl (fun acc v => 2 * acc + v.toNat) acc.toNat := by
  induction l generalizing acc with
  | nil => rfl
  | cons v l ih =>
    have hpos : 0 < 2 ^ l.length := Nat.two_pow_pos _
    rw [List.length_cons, Nat.pow_succ] at hfit
    by_cases hv : v = 0 ∨ v = 1
    · have hle : v.toNat ≤ 1 := by rcases hv with rfl | rfl <;> decide
      have hstep := packElement_toNat acc hv (by nlinarith)
      rw [List.filter_cons_of_pos (by simpa using hv), List.foldl_cons, List.foldl_cons, ← hstep]
      exact ih _ (by rw [hstep]; nlinarith)
    · rw [List.filter_cons_of_neg (by simpa using hv), List.foldl_cons, packElement_of_not_binary acc hv]
      exact ih acc (by nlinarith)

/-- Settles O37: a group has eight elements, one for each bit of the byte. -/
theorem packByteSkipsNonBinaryElements : Obligations.PackByteSkipsNonBinaryElements := fun buf g =>
  foldl_packElement_toNat (bitGroup buf g) 0 (by rw [bitGroup_length]; decide)

end Sys2Proof.Proofs
end

section
/-! What the float formats of R72 can denote: the fields of a pattern put together and read back, and the magnitudes of
the finite patterns. -/

namespace Sys2Proof.Proofs

open Sys2Proof.Machine

variable (f : FloatFmt)

/-! ### The widths -/

theorem fracBits_ge : 16 ≤ fracBits f := by cases f <;> decide

theorem fields_fit : expBits f + fracBits f < 64 := by cases f <;> decide

/-- 1.0, and with it every value below 2^16, is far below the largest exponent. -/
theorem unitsLog_add_three_le : unitsLog f + 3 ≤ 2 ^ expBits f := by cases f <;> decide

theorem unitsPerOne_pos : 0 < unitsPerOne f := Nat.two_pow_pos _

/-! ### A pattern and its fields -/

/-- The magnitude bits of an infinity, the least ones that are not finite. -/
def infinityBits : Nat := (2 ^ expBits f - 1) * 2 ^ fracBits f

theorem infinityBits_lt : infinityBits f < 2 ^ expBits f * 2 ^ fracBits f :=
  Nat.mul_lt_mul_of_pos_right (Nat.sub_lt (Nat.two_pow_pos _) Nat.one_pos) (Nat.two_pow_pos _)

variable {f} {neg : Bool} {bits : Nat}

theorem packFloat_toNat (h : bits < 2 ^ expBits f * 2 ^ fracBits f) :
    (packFloat f neg bits).toNat = bits + (if neg then 1 else 0) * 2 ^ expBits f * 2 ^ fracBits f := by
  have hwidth : 2 * (2 ^ expBits f * 2 ^ fracBits f) ≤ 2 ^ 64 := by
    rw [← pow_add, ← pow_succ']
    exact Nat.pow_le_pow_right Nat.two_pos (fields_fit f)
  rw [packFloat, BitVec.toNat_ofNat, pow_add, Nat.mod_eq_of_lt]
  · cases neg <;> simp
  · cases neg <;> simp only [if_true, if_false, Bool.false_eq_true] <;> omega

theorem expField_packFloat (h : bits < 2 ^ expBits f * 2 ^ fracBits f) :
    expField f (packFloat f neg bits) = bits / 2 ^ fracBits f := by
  rw [expField, packFloat_toNat h, Nat.add_mul_div_right _ _ (Nat.two_pow_pos _), Nat.add_mul_mod_self_right]
  exact Nat.mod_eq_of_lt (Nat.div_lt_of_lt_mul (by rwa [Nat.mul_comm]))

theorem fracField_packFloat (h : bits < 2 ^ expBits f * 2 ^ fracBits f) :
    fracField f (packFloat f neg bits) = bits % 2 ^ fracBits f := by
  rw [fracField, packFloat_toNat h, Nat.add_mul_mod_self_right]

theorem signBit_packFloat (h : bits < 2 ^ expBits f * 2 ^ fracBits f) : signBit f (packFloat f neg bits) = neg := by
  rw [signBit, BitVec.getLsbD, packFloat_toNat h, Nat.testBit_eq_decide_div_mod_eq, pow_add, Nat.mul_assoc,
    Nat.add_mul_div_right _ _ (by positivity), Nat.div_eq_of_lt h]
  cases neg <;> rfl

theorem packFloat_getLsbD_zero (h : bits < 2 ^ expBits f * 2 ^ fracBits f) :
    (packFloat f neg bits).getLsbD 0 = decide (bits % 2 = 1) := by
  obtain ⟨n, hn⟩ : 2 ∣ 2 ^ fracBits f := dvd_pow_self 2 (by have := fracBits_ge f; omega)
  rw [BitVec.getLsbD, packFloat_toNat h, Nat.testBit_zero, hn, Nat.mul_left_comm, Nat.add_mul_mod_self_left]

theorem isFinite_packFloat_iff (h : bits ≤ infinityBits f) :
    isFinite f (packFloat f neg bits) = true ↔ bits < infinityBits f := by
  have hdiv : bits / 2 ^ fracBits f ≤ 2 ^ expBits f - 1 :=
    (Nat.div_le_div_right h).trans_eq (Nat.mul_div_cancel _ (Nat.two_pow_pos _))
  rw [isFinite, expField_packFloat (h.trans_lt (infinityBits_lt f)), bne_iff_ne, infinityBits,
    ← Nat.div_lt_iff_lt_mul (Nat.two_pow_pos _)]
  omega

/-! ### The magnitudes -/

/-- The largest finite magnitude: every fraction bit set, under the largest exponent of a finite pattern. -/
def maxMagnitude (f : FloatFmt) : Nat := (2 ^ (fracBits f + 1) - 1) * 2 ^ (2 ^ expBits f - 3)

/-- A finite magnitude is a significand of at most one bit more than the fraction field, in units of a power of two. -/
theorem exists_magnitude_eq {x : BitVec 64} (hx : isFinite f x = true) :
    ∃ m j, magnitude f x = m * 2 ^ j ∧ m < 2 ^ (fracBits f + 1) ∧ j + 3 ≤ 2 ^ expBits f := by
  have hfrac : fracField f x < 2 ^ fracBits f := Nat.mod_lt _ (Nat.two_pow_pos _)
  have hexp : expField f x < 2 ^ expBits f := Nat.mod_lt _ (Nat.two_pow_pos _)
  have hlarge := unitsLog_add_three_le f
  rw [isFinite, bne_iff_ne] at hx
  rw [magnitude, pow_succ]
  split
  · exact ⟨fracField f x, 0, by simp, by omega, by omega⟩
  · exact ⟨2 ^ fracBits f + fracField f x, expField f x - 1, rfl, by omega, by omega⟩

theorem magnitude_le_maxMagnitude {x : BitVec 64} (hx : isFinite f x = true) : magnitude f x ≤ maxMagnitude f := by
  obtain ⟨m, j, hmag, hm, hj⟩ := exists_magnitude_eq hx
  rw [hmag]
  exact Nat.mul_le_mul (Nat.le_sub_one_of_lt hm) (Nat.pow_le_pow_right Nat.two_pos (by omega))

/-- Adding the exponent, less one, to a significand with its leading bit gives the pattern of `r * 2 ^ k` units (R72). A
significand without it is subnormal, and one that has grown to the next power of two carries into the exponent. -/
theorem magnitude_packFloat {k r : Nat} (hr : r ≤ 2 * 2 ^ fracBits f) (hk : k = 0 ∨ 2 ^ fracBits f ≤ r)
    (h : k * 2 ^ fracBits f + r < 2 ^ expBits f * 2 ^ fracBits f) :
    magnitude f (packFloat f neg (k * 2 ^ fracBits f + r)) = r * 2 ^ k := by
  have hpos : 0 < 2 ^ fracBits f := Nat.two_pow_pos _
  rw [magnitude, expField_packFloat h, fracField_packFloat h, Nat.add_comm, Nat.add_mul_div_right _ _ hpos,
    Nat.add_mul_mod_self_right]
  rcases lt_or_ge r (2 ^ fracBits f) with hlt | hge
  · obtain rfl : k = 0 := hk.resolve_right (by omega)
    simp [Nat.div_eq_of_lt hlt, Nat.mod_eq_of_lt hlt]
  · obtain ⟨t, rfl⟩ := Nat.exists_eq_add_of_le hge
    rw [Nat.add_div_left _ hpos, Nat.add_mod_left]
    rcases lt_or_eq_of_le (show t ≤ 2 ^ fracBits f by omega) with hlt | rfl
    · rw [Nat.div_eq_of_lt hlt, Nat.mod_eq_of_lt hlt, if_neg (by omega)]
      congr 2
      omega
    · rw [Nat.div_self hpos, Nat.mod_self, if_neg (by omega), show 0 + 1 + 1 + k - 1 = k + 1 by omega, pow_succ]
      ring

end Sys2Proof.Proofs
end

section
/-! Rounding (R118, R121): the whole number `roundNE` gives is a nearest one, so the pattern `roundFloat` gives is a nearest
value of the format, the even one of two, and it is finite wherever a finite value is as large. -/

namespace Sys2Proof.Proofs

open Sys2Proof.Machine

/-! ### To whole numbers -/

theorem roundNE_le_of_le {num den m : Nat} (hd : 0 < den) (h : num ≤ den * m) : roundNE num den ≤ m := by
  have hb := (roundNE_bounds num den hd).2
  by_contra hlt
  have := Nat.mul_le_mul_left den (Nat.succ_le_of_lt (not_le.1 hlt))
  rw [Nat.mul_succ] at this
  omega

theorem le_roundNE_of_le {num den m : Nat} (hd : 0 < den) (h : den * m ≤ num) : m ≤ roundNE num den := by
  have hb := (roundNE_bounds num den hd).1
  by_contra hlt
  have := Nat.mul_le_mul_left den (Nat.succ_le_of_lt (not_le.1 hlt))
  rw [Nat.mul_succ] at this
  omega

/-- Where the rounding is half away, the remainder is half the divisor, so the rounding is even. -/
theorem roundNE_even_of_half_away {num den : Nat} (hd : 0 < den)
    (h : 2 * ((roundNE num den : Int) * den - num).natAbs = den) : roundNE num den % 2 = 0 := by
  refine roundNE_tie num den ?_
  have hq := Nat.div_add_mod num den
  have hlt := Nat.mod_lt num hd
  have hs : den * (num / den + 1) = den * (num / den) + den := Nat.mul_succ _ _
  rw [← Nat.cast_mul, Nat.mul_comm (roundNE num den)] at h
  rcases roundNE_cases num den with hr | hr <;> rw [hr] at h
  · omega
  · omega

/-- No whole number is nearer to the quotient, and the rounding is even where another one is as near. -/
theorem roundNE_nearest {num den : Nat} (hd : 0 < den) (q : Int) :
    ((roundNE num den : Int) * den - num).natAbs ≤ (q * den - num).natAbs ∧
    (((roundNE num den : Int) * den - num).natAbs = (q * den - num).natAbs → q ≠ roundNE num den →
      roundNE num den % 2 = 0) := by
  obtain rfl | hne := eq_or_ne q (roundNE num den)
  · exact ⟨le_rfl, fun _ h => absurd rfl h⟩
  · obtain ⟨hlo, hhi⟩ := roundNE_bounds num den hd
    have hhalf : 2 * ((roundNE num den : Int) * den - num).natAbs ≤ den := by
      rw [← Nat.cast_mul, Nat.mul_comm (roundNE num den)]
      omega
    have happart : den ≤ (q * den - (roundNE num den : Int) * den).natAbs := by
      rw [← Int.sub_mul, Int.natAbs_mul, Int.natAbs_natCast]
      exact Nat.le_mul_of_pos_left _ (Int.natAbs_pos.2 (sub_ne_zero.2 hne))
    exact ⟨by omega, fun heq _ => roundNE_even_of_half_away hd (by omega)⟩

/-! ### The spacing of the format around a quotient -/

/-- The spacing of the format around `num / den` units, as a power of two. -/
def spacingLog (f : FloatFmt) (num den : Nat) : Nat := Nat.log2 (num / den) - fracBits f

/-- The quotient in whole spacings. -/
def roundedSignificand (f : FloatFmt) (num den : Nat) : Nat := roundNE num (den * 2 ^ spacingLog f num den)

theorem roundMagnitude_eq (f : FloatFmt) (num den : Nat) :
    roundMagnitude f num den =
      min (spacingLog f num den * 2 ^ fracBits f + roundedSignificand f num den) (infinityBits f) := rfl

section

variable {f : FloatFmt} {num den : Nat}

theorem spacing_den_pos (hd : 0 < den) : 0 < den * 2 ^ spacingLog f num den := Nat.mul_pos hd (Nat.two_pow_pos _)

/-- The quotient is below the value at which the spacing grows. -/
theorem lt_of_spacingLog (hd : 0 < den) : num < den * 2 ^ spacingLog f num den * (2 * 2 ^ fracBits f) := by
  have hlog : num / den < 2 ^ (spacingLog f num den + (fracBits f + 1)) :=
    Nat.lt_log2_self.trans_le (Nat.pow_le_pow_right Nat.two_pos (by rw [spacingLog]; omega))
  rw [Nat.mul_assoc, ← pow_succ', ← pow_add]
  exact ((Nat.div_lt_iff_lt_mul hd).1 hlog).trans_eq (Nat.mul_comm _ _)

/-- Where the spacing is more than a unit the quotient is at least the value from which it is so. -/
theorem le_of_spacingLog_ne_zero (hk : spacingLog f num den ≠ 0) :
    den * 2 ^ spacingLog f num den * 2 ^ fracBits f ≤ num := by
  have hlog : spacingLog f num den + fracBits f = Nat.log2 (num / den) := by rw [spacingLog] at hk ⊢; omega
  have hne : num / den ≠ 0 := by
    intro h0
    rw [spacingLog, h0, Nat.log2_zero] at hk
    omega
  rw [Nat.mul_assoc, ← pow_add, hlog]
  exact (Nat.mul_le_mul_left den (Nat.log2_self_le hne)).trans (Nat.mul_div_le num den)

theorem roundedSignificand_le (hd : 0 < den) : roundedSignificand f num den ≤ 2 * 2 ^ fracBits f :=
  roundNE_le_of_le (spacing_den_pos hd) (lt_of_spacingLog hd).le

theorem le_roundedSignificand (hd : 0 < den) (hk : spacingLog f num den ≠ 0) :
    2 ^ fracBits f ≤ roundedSignificand f num den :=
  le_roundNE_of_le (spacing_den_pos hd) (le_of_spacingLog_ne_zero hk)

/-! ### The pattern -/

variable {neg : Bool}

theorem roundMagnitude_lt (f : FloatFmt) (num den : Nat) :
    roundMagnitude f num den < 2 ^ expBits f * 2 ^ fracBits f :=
  (min_le_right _ _).trans_lt (infinityBits_lt f)

theorem signBit_roundFloat (f : FloatFmt) (neg : Bool) (num den : Nat) : signBit f (roundFloat f neg num den) = neg :=
  signBit_packFloat (roundMagnitude_lt f num den)

theorem isFinite_roundFloat_iff :
    isFinite f (roundFloat f neg num den) = true ↔
      spacingLog f num den * 2 ^ fracBits f + roundedSignificand f num den < infinityBits f := by
  rw [roundFloat, roundMagnitude_eq, isFinite_packFloat_iff (min_le_right _ _), min_lt_iff,
    or_iff_left (lt_irrefl _)]

theorem roundMagnitude_of_isFinite (hx : isFinite f (roundFloat f neg num den) = true) :
    roundMagnitude f num den = spacingLog f num den * 2 ^ fracBits f + roundedSignificand f num den :=
  min_eq_left (isFinite_roundFloat_iff.1 hx).le

/-- A finite rounding denotes the rounded number of spacings. -/
theorem magnitude_roundFloat (hd : 0 < den) (hx : isFinite f (roundFloat f neg num den) = true) :
    magnitude f (roundFloat f neg num den) = roundedSignificand f num den * 2 ^ spacingLog f num den := by
  have hlt := roundMagnitude_lt f num den
  rw [roundFloat]
  rw [roundMagnitude_of_isFinite hx] at hlt ⊢
  exact magnitude_packFloat (roundedSignificand_le hd) (or_iff_not_imp_left.2 (le_roundedSignificand hd)) hlt

/-- The number of spacings is the last bit of the pattern, up to parity. -/
theorem roundFloat_getLsbD_zero (hx : isFinite f (roundFloat f neg num den) = true)
    (heven : roundedSignificand f num den % 2 = 0) : (roundFloat f neg num den).getLsbD 0 = false := by
  have hpow : 2 ^ fracBits f % 2 = 0 := by
    rw [Nat.pow_mod, Nat.mod_self, zero_pow (by have := fracBits_ge f; omega)]
    rfl
  rw [roundFloat, packFloat_getLsbD_zero (roundMagnitude_lt f num den), roundMagnitude_of_isFinite hx, Nat.add_mod,
    Nat.mul_mod, hpow, heven]
  rfl

/-- The largest finite value has the largest spacing of a finite value. -/
theorem spacingLog_le_of_le (hd : 0 < den) (h : num ≤ maxMagnitude f * den) :
    spacingLog f num den ≤ 2 ^ expBits f - 3 := by
  have hdiv : num / den ≤ maxMagnitude f := (Nat.div_le_iff_le_mul_add_pred hd).2 (by rw [Nat.mul_comm den]; omega)
  have hmax : maxMagnitude f < 2 ^ (fracBits f + 1 + (2 ^ expBits f - 3)) := by
    rw [maxMagnitude, pow_add _ (fracBits f + 1)]
    exact Nat.mul_lt_mul_of_pos_right (Nat.sub_lt (Nat.two_pow_pos _) Nat.one_pos) (Nat.two_pow_pos _)
  rcases Nat.eq_zero_or_pos (num / den) with h0 | hpos
  · rw [spacingLog, h0, Nat.log2_zero, Nat.zero_sub]
    exact Nat.zero_le _
  · have hlog := (Nat.log2_lt hpos.ne').2 (hdiv.trans_lt hmax)
    rw [spacingLog]
    omega

/-- The exponent of the rounding is at most that of the largest finite value, and if it is that one, the significand does
not carry into the next. -/
theorem isFinite_roundFloat_of_le (hd : 0 < den) (h : num ≤ maxMagnitude f * den) :
    isFinite f (roundFloat f neg num den) = true := by
  have hpos : 0 < 2 ^ fracBits f := Nat.two_pow_pos _
  have hlarge := unitsLog_add_three_le f
  have hk := spacingLog_le_of_le hd h
  rw [maxMagnitude, pow_succ'] at h
  obtain ⟨J, hJ⟩ : ∃ J, 2 ^ expBits f = J + 3 := ⟨2 ^ expBits f - 3, by omega⟩
  have hbits : infinityBits f = J * 2 ^ fracBits f + 2 * 2 ^ fracBits f := by
    rw [infinityBits, hJ, show J + 3 - 1 = J + 2 from rfl, Nat.add_mul]
  rw [hJ, Nat.add_sub_cancel] at hk h
  rw [isFinite_roundFloat_iff, hbits]
  rcases lt_or_eq_of_le hk with hlt | heq
  · have hmul := Nat.mul_le_mul_right (2 ^ fracBits f) (Nat.succ_le_of_lt hlt)
    have hr := roundedSignificand_le (f := f) (num := num) hd
    rw [Nat.succ_mul] at hmul
    omega
  · have hr : roundedSignificand f num den ≤ 2 * 2 ^ fracBits f - 1 :=
      roundNE_le_of_le (spacing_den_pos hd) (h.trans_eq (by rw [heq]; ring))
    rw [heq]
    omega

/-! ### A nearest value -/

/-- Around a quotient every value of the format is a whole number of spacings, or lies below the values from which the
spacing is what it is there. -/
theorem magnitude_eq_mul_or_lt {y : BitVec 64} (hy : isFinite f y = true) (k : Nat) :
    (∃ q, magnitude f y = q * 2 ^ k) ∨ k ≠ 0 ∧ magnitude f y < 2 ^ fracBits f * 2 ^ k := by
  obtain ⟨m, j, hmag, hm, -⟩ := exists_magnitude_eq hy
  rcases le_or_gt k j with hle | hlt
  · refine .inl ⟨m * 2 ^ (j - k), ?_⟩
    rw [hmag, Nat.mul_assoc, ← pow_add, Nat.sub_add_cancel hle]
  · refine .inr ⟨by omega, ?_⟩
    calc magnitude f y < 2 ^ (fracBits f + 1) * 2 ^ j := hmag ▸ Nat.mul_lt_mul_of_pos_right hm (Nat.two_pow_pos _)
      _ = 2 ^ fracBits f * 2 ^ (j + 1) := by ring
      _ ≤ 2 ^ fracBits f * 2 ^ k := Nat.mul_le_mul_left _ (Nat.pow_le_pow_right Nat.two_pos hlt)

/-- A whole number of spacings is no nearer to the quotient than the rounded one. -/
theorem roundedSignificand_nearest (hd : 0 < den) (q : Int) :
    ((roundedSignificand f num den * 2 ^ spacingLog f num den : Nat) * (den : Int) - num).natAbs ≤
      (q * 2 ^ spacingLog f num den * den - num).natAbs ∧
    (((roundedSignificand f num den * 2 ^ spacingLog f num den : Nat) * (den : Int) - num).natAbs =
        (q * 2 ^ spacingLog f num den * den - num).natAbs →
      q * 2 ^ spacingLog f num den ≠ (roundedSignificand f num den * 2 ^ spacingLog f num den : Nat) →
      roundedSignificand f num den % 2 = 0) := by
  have h := roundNE_nearest (num := num) (spacing_den_pos (f := f) (num := num) hd) q
  have hscale (z : Int) : z * 2 ^ spacingLog f num den * den = z * (den * 2 ^ spacingLog f num den : Nat) := by
    push_cast
    ring
  push_cast
  rw [hscale, hscale]
  exact ⟨h.1, fun heq hne => h.2 heq fun hq => hne (by rw [hq]; rfl)⟩

/-- No value of the format, of either sign, is nearer to the quotient than the rounded number of spacings, and that number is
even where another value is as near. -/
theorem roundedSignificand_nearest_value (hd : 0 < den) {y : BitVec 64} (hy : isFinite f y = true) {u : Int}
    (hu : u.natAbs = magnitude f y) :
    ((roundedSignificand f num den * 2 ^ spacingLog f num den : Nat) * (den : Int) - num).natAbs ≤
      (u * den - num).natAbs ∧
    (((roundedSignificand f num den * 2 ^ spacingLog f num den : Nat) * (den : Int) - num).natAbs =
        (u * den - num).natAbs →
      u ≠ (roundedSignificand f num den * 2 ^ spacingLog f num den : Nat) →
      roundedSignificand f num den % 2 = 0) := by
  rcases magnitude_eq_mul_or_lt hy (spacingLog f num den) with ⟨q, hq⟩ | ⟨hk, hlt⟩
  · obtain ⟨p, rfl⟩ : ∃ p : Int, u = p * 2 ^ spacingLog f num den := by
      rcases Int.natAbs_eq u with h | h <;> rw [hu, hq] at h
      · exact ⟨q, by rw [h]; push_cast; rfl⟩
      · exact ⟨-q, by rw [h]; push_cast; ring⟩
    exact roundedSignificand_nearest hd p
  · -- the least value from which the spacing is what it is lies between `u` and the quotient
    have hleast := (roundedSignificand_nearest (f := f) (num := num) hd (2 ^ fracBits f)).1
    have hle := le_of_spacingLog_ne_zero hk
    have hud : u * den < (2 ^ fracBits f * 2 ^ spacingLog f num den : Int) * den := by
      refine mul_lt_mul_of_pos_right (Int.le_natAbs.trans_lt ?_) (by exact_mod_cast hd)
      rw [hu]
      exact_mod_cast hlt
    have hnum : (2 ^ fracBits f * 2 ^ spacingLog f num den : Int) * den ≤ num := by
      refine le_trans (le_of_eq ?_) (Nat.cast_le.2 hle)
      push_cast
      ring
    exact ⟨by omega, fun heq => absurd heq (by omega)⟩

end

end Sys2Proof.Proofs
end

section
/-! A rounding with its sign (R121): `roundFloat` gives the nearest value to the signed quotient, of two the even one. -/

namespace Sys2Proof.Proofs

open Sys2Proof.Machine

/-! ### A sign and a magnitude -/

/-- The whole number of this sign and this magnitude. -/
def signed (neg : Bool) (n : Nat) : Int := if neg then -(n : Int) else n

theorem floatUnits_eq_signed (f : FloatFmt) (x : BitVec 64) :
    floatUnits f x = signed (signBit f x) (magnitude f x) := rfl

@[simp] theorem signed_natAbs (neg : Bool) (n : Nat) : (signed neg n).natAbs = n := by
  cases neg <;> simp [signed]

theorem signed_mul (a b : Bool) (m n : Nat) : signed a m * signed b n = signed (a != b) (m * n) := by
  cases a <;> cases b <;> simp [signed]

theorem signed_mul_natCast (a : Bool) (m n : Nat) : signed a m * (n : Int) = signed a (m * n) := by
  cases a <;> simp [signed]

theorem sign_signed (neg : Bool) {n : Nat} (hn : n ≠ 0) : (signed neg n).sign = signed neg 1 := by
  have hsign : (n : Int).sign = 1 := Int.sign_eq_one_of_pos (by omega)
  cases neg <;> simp [signed, hsign]

theorem signed_add_same (neg : Bool) (m n : Nat) : signed neg m + signed neg n = signed neg (m + n) := by
  cases neg <;> simp only [signed, if_true, if_false, Bool.false_eq_true] <;> omega

/-- Of two numbers of opposite sign the larger magnitude decides the sign of the sum. -/
theorem signed_add_opposite (neg : Bool) {m n : Nat} (h : n ≤ m) :
    signed neg m + signed (!neg) n = signed neg (m - n) := by
  cases neg <;> simp only [signed, if_true, if_false, Bool.false_eq_true, Bool.not_true, Bool.not_false] <;> omega

/-- A sign common to all is no part of a distance. -/
theorem natAbs_sub_signed (neg : Bool) (u : Int) (den num : Nat) :
    (u * den - signed neg num).natAbs = ((if neg then -u else u) * den - num).natAbs := by
  cases neg
  · rfl
  · rw [← Int.natAbs_neg]
    simp only [signed, if_true]
    congr 1
    ring

section

variable {f : FloatFmt} {num den : Nat} {neg : Bool}

theorem floatUnits_natAbs (f : FloatFmt) (x : BitVec 64) : (floatUnits f x).natAbs = magnitude f x := signed_natAbs _ _

theorem floatUnits_roundFloat (hd : 0 < den) (hx : isFinite f (roundFloat f neg num den) = true) :
    floatUnits f (roundFloat f neg num den) =
      signed neg (roundedSignificand f num den * 2 ^ spacingLog f num den) := by
  rw [floatUnits_eq_signed, signBit_roundFloat, magnitude_roundFloat hd hx]

/-- A finite rounding is the nearest value of the format, of two the even one (R121). -/
theorem nearestEven_roundFloat (hd : 0 < den) (hx : isFinite f (roundFloat f neg num den) = true) :
    NearestEven f (roundFloat f neg num den) (signed neg num) den := by
  intro y hy
  have hu : (if neg then -floatUnits f y else floatUnits f y).natAbs = magnitude f y := by
    rw [← floatUnits_natAbs]
    cases neg <;> simp
  obtain ⟨hle, heven⟩ := roundedSignificand_nearest_value (num := num) hd hy hu
  have hround : (if neg then -floatUnits f (roundFloat f neg num den) else floatUnits f (roundFloat f neg num den)) =
      (roundedSignificand f num den * 2 ^ spacingLog f num den : Nat) := by
    rw [floatUnits_roundFloat hd hx]
    cases neg <;> simp [signed]
  rw [natAbs_sub_signed, natAbs_sub_signed, hround]
  refine ⟨hle, fun heq hne => roundFloat_getLsbD_zero hx (heven heq fun h => hne ?_)⟩
  rw [← hround] at h
  cases neg
  · exact h
  · exact neg_inj.1 h

/-- Rounding the quotient of this sign once (R121). -/
theorem roundsExact_roundFloat (f : FloatFmt) (neg : Bool) (num : Nat) (hd : 0 < den) :
    RoundsExact f (roundFloat f neg num den) (signed neg num) den := by
  refine ⟨fun z hz hle => isFinite_roundFloat_of_le hd ?_, nearestEven_roundFloat hd⟩
  rw [signed_natAbs, floatUnits_natAbs] at hle
  exact hle.trans (Nat.mul_le_mul_right den (magnitude_le_maxMagnitude hz))

end

/-- Settles O44: the rounding is the nearest even value. -/
theorem roundingIsToTheNearestEven : Obligations.RoundingIsToTheNearestEven := by
  rintro f num den x y hd rfl hx hy
  exact nearestEven_roundFloat (neg := false) hd hx y hy

end Sys2Proof.Proofs
end

section
/-! The float operations of R121: each puts its exact result as a sign and a magnitude and rounds it once; a raw value is its
own rounding. -/

namespace Sys2Proof.Proofs

open Sys2Proof.Machine

section

variable {f : FloatFmt} {a b : BitVec 64}

theorem fmul_of_isFinite (ha : isFinite f a = true) (hb : isFinite f b = true) :
    fmul f a b =
      roundFloat f (signBit f a != signBit f b) (magnitude f a * magnitude f b) (unitsPerOne f) := by
  simp [fmul, ha, hb]

theorem fdiv_of_isFinite (ha : isFinite f a = true) (hb : isFinite f b = true) (hne : magnitude f b ≠ 0) :
    fdiv f a b =
      roundFloat f (signBit f a != signBit f b) (magnitude f a * unitsPerOne f) (magnitude f b) := by
  simp [fdiv, ha, hb, hne]

/-- The sum is the rounding of the exact sum, put as a sign and a magnitude; operands that are not negative have a sum
that is not. -/
theorem exists_fadd_eq (ha : isFinite f a = true) (hb : isFinite f b = true) :
    ∃ neg num, fadd f a b = roundFloat f neg num 1 ∧ floatUnits f a + floatUnits f b = signed neg num ∧
      (signBit f a = false → signBit f b = false → neg = false) := by
  rw [floatUnits_eq_signed, floatUnits_eq_signed]
  simp only [fadd, ha, hb, Bool.and_self, if_true]
  split
  case isTrue hs =>
    exact ⟨_, _, rfl, by rw [← beq_iff_eq.1 hs, signed_add_same], fun hsa _ => hsa⟩
  case isFalse hs =>
    have hsb : signBit f b = !signBit f a := by
      revert hs
      cases signBit f a <;> cases signBit f b <;> decide
    have hsa : signBit f a = !signBit f b := by rw [hsb, Bool.not_not]
    split
    case isTrue hlt =>
      exact ⟨_, _, rfl, by rw [hsb, signed_add_opposite _ hlt.le], fun h _ => h⟩
    case isFalse hge =>
      split
      case isTrue hlt =>
        exact ⟨_, _, rfl, by rw [hsa, add_comm, signed_add_opposite _ hlt.le], fun _ h => h⟩
      case isFalse hle =>
        refine ⟨_, _, rfl, ?_, fun _ _ => rfl⟩
        rw [hsb, signed_add_opposite _ (not_lt.1 hle), le_antisymm (not_lt.1 hge) (not_lt.1 hle), Nat.sub_self]
        cases signBit f a <;> rfl

theorem roundsExact_fmul (ha : isFinite f a = true) (hb : isFinite f b = true) :
    RoundsExact f (fmul f a b) (floatUnits f a * floatUnits f b) (unitsPerOne f) := by
  rw [fmul_of_isFinite ha hb, floatUnits_eq_signed, floatUnits_eq_signed, signed_mul]
  exact roundsExact_roundFloat _ _ _ (unitsPerOne_pos f)

theorem roundsExact_fadd (ha : isFinite f a = true) (hb : isFinite f b = true) :
    RoundsExact f (fadd f a b) (floatUnits f a + floatUnits f b) 1 := by
  obtain ⟨neg, num, hround, hsum, -⟩ := exists_fadd_eq ha hb
  rw [hround, hsum]
  exact roundsExact_roundFloat _ _ _ Nat.one_pos

theorem magnitude_ne_zero (hne : floatUnits f b ≠ 0) : magnitude f b ≠ 0 := by
  rwa [← floatUnits_natAbs, Int.natAbs_ne_zero]

theorem roundsExact_fdiv (ha : isFinite f a = true) (hb : isFinite f b = true) (hne : floatUnits f b ≠ 0) :
    RoundsExact f (fdiv f a b) (floatUnits f a * unitsPerOne f * (floatUnits f b).sign) (floatUnits f b).natAbs := by
  have hmag := magnitude_ne_zero hne
  rw [fdiv_of_isFinite ha hb hmag, floatUnits_natAbs, floatUnits_eq_signed f a, floatUnits_eq_signed f b,
    sign_signed _ hmag, signed_mul_natCast, signed_mul, Nat.mul_one]
  exact roundsExact_roundFloat _ _ _ (Nat.pos_of_ne_zero hmag)

/-- Operands that are not negative give a result that is not negative. -/
theorem signBit_operations (ha : isFinite f a = true) (hb : isFinite f b = true) (hsa : signBit f a = false)
    (hsb : signBit f b = false) :
    signBit f (fmul f a b) = false ∧ signBit f (fadd f a b) = false ∧
      (floatUnits f b ≠ 0 → signBit f (fdiv f a b) = false) := by
  refine ⟨?_, ?_, fun hne => ?_⟩
  · rw [fmul_of_isFinite ha hb, signBit_roundFloat, hsa, hsb]
    rfl
  · obtain ⟨neg, num, hround, -, hneg⟩ := exists_fadd_eq ha hb
    rw [hround, signBit_roundFloat, hneg hsa hsb]
  · rw [fdiv_of_isFinite ha hb (magnitude_ne_zero hne), signBit_roundFloat, hsa, hsb]
    rfl

end

/-! ### Constants and raw values -/

section

variable (f : FloatFmt) (v : BitVec 16)

theorem signBit_u16ToF : signBit f (u16ToF f v) = false := signBit_roundFloat _ _ _ _

/-- The largest finite value is far above any raw value. -/
theorem isFinite_u16ToF : isFinite f (u16ToF f v) = true := by
  refine isFinite_roundFloat_of_le Nat.one_pos ?_
  have hv : v.toNat ≤ 2 ^ (fracBits f + 1) - 1 :=
    Nat.le_sub_one_of_lt (v.isLt.trans_le (Nat.pow_le_pow_right Nat.two_pos (by have := fracBits_ge f; omega)))
  rw [Nat.mul_one]
  exact Nat.mul_le_mul hv (Nat.pow_le_pow_right Nat.two_pos (by have := unitsLog_add_three_le f; omega))

/-- A raw value has fewer bits than the fraction field, so it is a whole number of spacings. -/
theorem spacingLog_u16_le : spacingLog f (v.toNat * unitsPerOne f) 1 ≤ unitsLog f := by
  have hlog : Nat.log2 (v.toNat * unitsPerOne f / 1) ≤ 16 + unitsLog f := by
    rw [Nat.div_one]
    rcases Nat.eq_zero_or_pos (v.toNat * unitsPerOne f) with h | h
    · simp [h]
    · refine ((Nat.log2_lt h.ne').2 ?_).le
      rw [pow_add]
      exact Nat.mul_lt_mul_of_pos_right v.isLt (unitsPerOne_pos f)
  have := fracBits_ge f
  rw [spacingLog]
  omega

theorem floatUnits_u16ToF : floatUnits f (u16ToF f v) = v.toNat * unitsPerOne f := by
  have hsplit : v.toNat * unitsPerOne f =
      v.toNat * 2 ^ (unitsLog f - spacingLog f (v.toNat * unitsPerOne f) 1) *
        2 ^ spacingLog f (v.toNat * unitsPerOne f) 1 := by
    rw [Nat.mul_assoc, ← pow_add, Nat.sub_add_cancel (spacingLog_u16_le f v)]
    rfl
  have hround : roundedSignificand f (v.toNat * unitsPerOne f) 1 * 2 ^ spacingLog f (v.toNat * unitsPerOne f) 1 =
      v.toNat * unitsPerOne f := by
    rw [roundedSignificand, Nat.one_mul]
    generalize spacingLog f (v.toNat * unitsPerOne f) 1 = k at hsplit ⊢
    rw [hsplit, roundNE_exact _ _ (Nat.two_pow_pos _)]
  rw [u16ToF, floatUnits_roundFloat Nat.one_pos (isFinite_u16ToF f v), hround]
  exact Nat.cast_mul _ _

theorem roundsExact_fconst (num : Nat) {den : Nat} (hd : 0 < den) :
    RoundsExact f (fconst f num den) (num * unitsPerOne f) den :=
  Int.natCast_mul num (unitsPerOne f) ▸ roundsExact_roundFloat f false _ hd

theorem signBit_fconst (num den : Nat) : signBit f (fconst f num den) = false := signBit_roundFloat _ _ _ _

end

/-- Settles O59: each operation on finite operands is one rounding of its exact result, put as a sign and a magnitude. -/
theorem floatOperationsRoundTheExactResult : Obligations.FloatOperationsRoundTheExactResult := fun f _ _ ha hb =>
  ⟨roundsExact_fmul ha hb, roundsExact_fadd ha hb, roundsExact_fdiv ha hb, signBit_operations ha hb,
    fun v => ⟨isFinite_u16ToF f v, signBit_u16ToF f v, floatUnits_u16ToF f v⟩,
    fun num den hd => ⟨roundsExact_fconst f num hd, signBit_fconst f num den⟩⟩

/-- Settles O46: each constant's rounding, evaluated. -/
theorem floatConstantPatterns : Obligations.FloatConstantPatterns := by
  unfold Obligations.FloatConstantPatterns
  decide +kernel

end Sys2Proof.Proofs
end

section
/-! The Reading (R114, R119): a raw value divided by 10.0 is the value of the format nearest to its tenth. -/

namespace Sys2Proof.Proofs

open Sys2Proof.Machine

section

variable (f : FloatFmt) (raw : BitVec 16)

/-- 10.0 is the float of the raw value 10. -/
theorem fconst_ten_eq : fconst f 10 1 = u16ToF f 10 := rfl

theorem floatUnits_ten : floatUnits f (fconst f 10 1) = 10 * unitsPerOne f := floatUnits_u16ToF f 10

theorem floatUnits_ten_ne_zero : floatUnits f (fconst f 10 1) ≠ 0 := by
  have := unitsPerOne_pos f
  rw [floatUnits_ten]
  omega

/-- The Reading rounds `raw * U * U` over `10 * U` units, `U` being the units of 1.0 (R114). -/
theorem roundsExact_reading :
    RoundsExact f (fdiv f (u16ToF f raw) (fconst f 10 1)) (raw.toNat * unitsPerOne f * unitsPerOne f)
      (10 * unitsPerOne f) := by
  have h := roundsExact_fdiv (isFinite_u16ToF f raw) (isFinite_u16ToF f 10) (floatUnits_ten_ne_zero f)
  have hpos : (0 : Int) < 10 * unitsPerOne f := by have := unitsPerOne_pos f; omega
  rw [floatUnits_u16ToF, ← fconst_ten_eq, floatUnits_ten, Int.sign_eq_one_of_pos hpos, mul_one] at h
  exact h

theorem isFinite_reading : isFinite f (fdiv f (u16ToF f raw) (fconst f 10 1)) = true := by
  refine (roundsExact_reading f raw).1 _ (isFinite_u16ToF f raw) ?_
  rw [floatUnits_u16ToF, Int.natAbs_mul]
  refine Nat.mul_le_mul_left _ ?_
  rw [Int.natAbs_natCast]
  omega

/-- Distances to the quotient, scaled by `U`. -/
theorem natAbs_sub_reading (u : Int) :
    (u * (10 * unitsPerOne f : Nat) - raw.toNat * unitsPerOne f * unitsPerOne f).natAbs =
      (10 * u - (raw.toNat * unitsPerOne f : Nat)).natAbs * unitsPerOne f := by
  rw [← Int.natAbs_natCast (unitsPerOne f), ← Int.natAbs_mul, Int.natAbs_natCast]
  congr 1
  push_cast
  ring

theorem reading_nearest {y : BitVec 64} (hy : isFinite f y = true) :
    (10 * floatUnits f (fdiv f (u16ToF f raw) (fconst f 10 1)) - (raw.toNat * unitsPerOne f : Nat)).natAbs ≤
      (10 * floatUnits f y - (raw.toNat * unitsPerOne f : Nat)).natAbs := by
  have h := ((roundsExact_reading f raw).2 (isFinite_reading f raw) y hy).1
  rw [natAbs_sub_reading, natAbs_sub_reading] at h
  exact Nat.le_of_mul_le_mul_right h (unitsPerOne_pos f)

theorem roundFloat_zero (den : Nat) : roundFloat f false 0 den = 0 := by
  simp [roundFloat, packFloat, roundMagnitude, roundNE]

theorem reading_zero : fdiv f (u16ToF f 0) (fconst f 10 1) = 0 := by
  have hzero : magnitude f (u16ToF f 0) = 0 := by
    rw [← floatUnits_natAbs, floatUnits_u16ToF]
    simp
  have hten := magnitude_ne_zero (floatUnits_ten_ne_zero f)
  rw [fconst_ten_eq] at hten ⊢
  rw [fdiv_of_isFinite (isFinite_u16ToF f 0) (isFinite_u16ToF f 10) hten, hzero, Nat.zero_mul, signBit_u16ToF,
    signBit_u16ToF]
  exact roundFloat_zero f _

/-- The smallest positive value, one unit, is nearer than 0 to a tenth of every raw value but 0. -/
theorem reading_ne_zero (h : raw ≠ 0) : fdiv f (u16ToF f raw) (fconst f 10 1) ≠ 0 := by
  intro hx
  have hone : isFinite f 1 = true ∧ floatUnits f 1 = 1 ∧ floatUnits f 0 = 0 := by cases f <;> decide
  obtain ⟨hfinite, hunit, hzero⟩ := hone
  have hnear := reading_nearest f raw hfinite
  have hraw : 1 ≤ raw.toNat := Nat.one_le_iff_ne_zero.2 fun h0 => h (BitVec.eq_of_toNat_eq h0)
  have hunits : 2 ^ 4 ≤ unitsPerOne f := Nat.pow_le_pow_right Nat.two_pos (by cases f <;> decide)
  have hge := Nat.mul_le_mul hraw hunits
  rw [hx, hunit, hzero] at hnear
  omega

end

/-- Settles O45: a Reading is the quotient of two exact floats, rounded once, by a divisor that is not zero. -/
theorem readingIsNearestToTheTenth : Obligations.ReadingIsNearestToTheTenth := by
  rintro f raw x rfl
  refine ⟨isFinite_reading f raw, ?_, ⟨not_imp_not.1 (reading_ne_zero f raw), ?_⟩, fun y hy => reading_nearest f raw hy⟩
  · obtain ⟨-, -, hdiv⟩ := signBit_operations (isFinite_u16ToF f raw) (isFinite_u16ToF f 10) (signBit_u16ToF f raw)
      (signBit_u16ToF f 10)
    exact hdiv (floatUnits_ten_ne_zero f)
  · rintro rfl
    exact reading_zero f

end Sys2Proof.Proofs
end

section
/-! The host's commands (spec/42_host.md): the acceptance of a command word, then READENV, NOP, CLEAR and PUSHBIT. -/

namespace Sys2Proof.Proofs

open Sys2Proof.Machine

variable {s : State}

/-! ### Acceptance -/

/-- The three commands that need a stage flag (R123, R130). -/
theorem neededFlag_eq_false_iff (s : State) (i : Instr) :
    neededFlag s i = false ↔
      i = .validate ∧ s.frameV = false ∨ i = .assemble ∧ s.chkV = false ∨ i = .altScale ∧ s.rdy = false := by
  cases i <;> simp [neededFlag]

theorem exec_of_refused {i : Instr} (hi : isEvent i = false)
    (h : i ≠ .nop ∧ s.busy = true ∨ neededFlag s i = false) : exec i s = .next (refuse s) := by
  have hr : s.busy = true ∨ neededFlag s i = false := h.imp_left And.right
  cases i with
  | nop => exact h.elim (fun hn => absurd rfl hn.1) nofun
  | read | readEnv | clear | pushBit | pack | validate | assemble | decode | altScale =>
    exact acceptCmd_of_refused hr _
  | edge | endOfStream | lineError | holdDone | deadline => exact nomatch hi

/-- A command that is not refused ends with REJ <- 0 (R130). -/
theorem execEffect_rej_of_accepted {i : Instr} {t : State} (he : ExecEffect s i t) (hi : isEvent i = false)
    (h : ¬(i ≠ .nop ∧ s.busy = true ∨ neededFlag s i = false)) : t.rej = false := by
  cases he with
  | refused _ _ hn hr => exact absurd (hr.imp_left (And.intro hn)) h
  | dropped _ hev => exact nomatch hi.symm.trans hev
  | nop | read | readEnv | clear | pushBit | pack | validate | assemble | decode | altScale => rfl
  | _ => exact nomatch hi

/-- Settles O50: a reserved word is refused by the port, and a command by the busy guard or for want of its flag. -/
theorem commandAcceptance : Obligations.CommandAcceptance := by
  refine fun s w => ⟨fun x hx => hostWrite_cmd_of_error hx s, fun i hi => ?_⟩
  have hcmd := not_isEvent_of_decodeWord_cmd hi
  rw [← neededFlag_eq_false_iff, hostWrite_cmd_of_ok hi]
  refine ⟨exec_of_refused hcmd, fun h => ⟨rfl, ?_⟩⟩
  obtain ⟨t, ht, he⟩ := exec_effect i s
  exact ⟨t, ht, execEffect_rej_of_accepted he hcmd h⟩

/-! ### READENV, NOP and CLEAR -/

/-- Settles O21: START writes the same whichever command it is, but for OPSEL. -/
theorem readEnvStartsARead : Obligations.ReadEnvStartsARead :=
  ⟨decodeEncodeRoundTrip .readEnv, fun s =>
    ⟨fun hb => acceptCmd_of_busy hb true (startRead .readEnv), fun hb =>
      ⟨accepted (startRead .read s), acceptCmd_of_not_busy hb (startRead .read),
        acceptCmd_of_not_busy hb (startRead .readEnv), rfl⟩⟩⟩

/-- Settles O47: NOP is the one command without a busy guard, and REJ is its one write. -/
theorem nopClearsOnlyRej : Obligations.NopClearsOnlyRej := ⟨decodeEncodeRoundTrip .nop, fun _ => rfl⟩

/-- Settles O48: CLEAR needs no flag, and its writes are those of reset but for the three registers it keeps. -/
theorem clearIsResetButLineDeadlineT0 : Obligations.ClearIsResetButLineDeadlineT0 :=
  ⟨decodeEncodeRoundTrip .clear, fun _ =>
    ⟨fun hb => acceptCmd_of_busy hb true clearBlock, fun hb => acceptCmd_of_not_busy hb clearBlock⟩⟩

/-! ### PUSHBIT -/

/-- ARG stands in bits 15:8 of a command word, OP in bits 3:0 (R63). -/
theorem cmdWord_eq_ofNat (op : BitVec 4) (arg : Byte) :
    cmdWord op arg = BitVec.ofNat 32 (op.toNat + 256 * arg.toNat) := by
  apply BitVec.eq_of_toNat_eq
  have hzero (n : Nat) : (0 : BitVec n).toNat = 0 := BitVec.toNat_zero
  simp only [cmdWord, toNat_append_eq_add, BitVec.toNat_ofNat, hzero]
  omega

theorem satInc_toNat (c : Byte) : (satInc c).toNat = min (c.toNat + 1) 255 := by
  unfold satInc
  split
  · simp [*]
  · bv_omega

/-- Settles O49: PUSHBIT needs no flag, its store is that of any element, and its count saturates. -/
theorem pushBitAppends : Obligations.PushBitAppends := by
  refine ⟨fun v => ?_, fun s v => ⟨fun hb => acceptCmd_of_busy hb true (pushElement v), fun hb =>
    ⟨_, acceptCmd_of_not_busy hb (pushElement v), rfl, satInc_toNat s.bitcnt, storeElement_bitbuf v s⟩⟩⟩
  have hword : BitVec.ofNat 32 (4 + 256 * v.toNat) = cmdWord 4 v := (cmdWord_eq_ofNat 4 v).symm
  rw [hword]
  exact decodeEncodeRoundTrip (.pushBit v)

end Sys2Proof.Proofs
end

section
/-! What one presentation of a step answers, an equivalence or equation for each port, and from them the step as a whole
(spec/60_exceptions.md R161) and the step that presents one port word alone. -/

namespace Sys2Proof.Proofs

open Sys2Proof.Machine

variable {s t : State}

theorem presentTimer_eq_next_iff {c : BitVec 1} {b : Bool} :
    presentTimer c b s = .next t ↔ (b = true → exec (decodeTimer c) s = .next t) ∧ (b = false → t = s) := by
  cases b with
  | false => simp [presentTimer, eq_comm]
  | true => simp [presentTimer]

/-- An absent line word and a reserved one leave the state (R70 b); any other is its instruction. -/
theorem presentLine_eq_next_iff {x : Option LineWord} :
    presentLine x s = .next t ↔ (x = none → t = s) ∧ ∀ e, x = some e →
      (∀ i, decodeWord (.line e) = .ok i → exec i s = .next t) ∧ (∀ r, decodeWord (.line e) = .error r → t = s) := by
  cases x with
  | none => simp [presentLine, eq_comm]
  | some e =>
    cases h : decodeWord (.line e) with
    | ok i => simp [presentLine, h]
    | error r => simp [presentLine, h, eq_comm]

/-- Settles O8: a step with an input is `takeInput`, whose four presentations follow one another; both timers and the
host read are left where R161 has them, on the state before the step. -/
theorem stepProcessesInputsInOrder : Obligations.StepProcessesInputsInOrder := by
  intro s inp rest hin
  rw [step_of_inputs_cons hin]
  refine ⟨answerRead inp.hostRead { s with inputs := rest, now := inp.now }, ?_, fun hreset => ?_, fun hreset => ?_⟩
  · cases inp.hostRead <;> rfl
  · obtain ⟨v, hread⟩ := answerRead_eq inp.hostRead { s with inputs := rest, now := inp.now }
    refine ⟨v, (if_pos hreset).trans ?_⟩
    rw [hread]
    rfl
  · rcases takeInput_cases inp { s with inputs := rest, now := inp.now } with
      ⟨hreset', -⟩ | ⟨-, s1, s2, s3, t, hdeadline, hline, hhold, hwrite, ht⟩
    · exact absurd hreset' (Bool.eq_false_iff.1 hreset)
    · obtain ⟨hdeadline, hnoDeadline⟩ := presentTimer_eq_next_iff.1 hdeadline
      obtain ⟨hnoLine, hline⟩ := presentLine_eq_next_iff.1 hline
      obtain ⟨hhold, hnoHold⟩ := presentTimer_eq_next_iff.1 hhold
      rw [ht, ← hwrite]
      refine ⟨s1, s2, s3, hdeadline, hnoDeadline, hnoLine, hline, hhold, hnoHold, fun hnone => ?_, fun n v hsome => ?_⟩
      · rw [hnone]
        rfl
      · rw [hsome]
        rfl

theorem andThen_next_right (o : Host.Outcome State Fault Refusal) : andThen o .next = o := by
  cases o <;> rfl

theorem presentLine_of_ok {e : LineWord} {i : Instr} (h : decodeWord (.line e) = .ok i) (s : State) :
    presentLine (some e) s = exec i s := by
  simp only [presentLine, h]

/-- An input that presents one port word alone is the instruction the word decodes to: no reset, and the other three
presentations leave the state as it is. -/
theorem takeInput_presentWord {p : PortWord} {i : Instr} (h : decodeWord p = .ok i) (now : Nanos) (s : State) :
    takeInput (presentWord now p) s = exec i s := by
  cases p with
  | cmd w => exact hostWrite_cmd_of_ok h s
  | line e => exact (andThen_next_right (presentLine (some e) s)).trans (presentLine_of_ok h s)
  | timer c =>
    cases h
    obtain rfl | rfl := BitVec.eq_zero_or_eq_one c
    · exact andThen_next_right (exec .holdDone s)
    · exact andThen_next_right (exec .deadline s)

/-- Settles O7: the three inputs are the ones that present a word alone. -/
theorem stepRunsTheDecodedWord : Obligations.StepRunsTheDecodedWord := fun s now rest _ =>
  ⟨fun _ h => takeInput_presentWord h now { s with inputs := rest, now := now },
    fun _ h => takeInput_presentWord h now { s with inputs := rest, now := now },
    fun _ h => takeInput_presentWord h now { s with inputs := rest, now := now }⟩

end Sys2Proof.Proofs
end

section
/-! The two timers (R166 to R168): when each is present in a timed step, and the untimed step that is the same. -/

namespace Sys2Proof.Proofs

open Sys2Proof.Machine

variable {inp : StepInput}

theorem holdFires_iff (now : Nanos) (s : State) :
    holdFires now s = true ↔
      s.fsm = .startPulseSent ∧ s.params.tHoldNs.toNat ≤ (now.toNat + (2 ^ 64 - s.t0.toNat)) % 2 ^ 64 := by
  rw [holdFires, Bool.and_eq_true, beq_iff_eq, decide_eq_true_iff, BitVec.le_def, elapsed_toNat]

theorem holdPresent_of_timed (h : inp.timers = .timed) (s : State) : holdPresent inp s = holdFires inp.now s := by
  rw [holdPresent, h]

theorem deadlinePresent_of_timed (h : inp.timers = .timed) (s : State) :
    deadlinePresent inp s = deadlineFires inp.now s := by
  rw [deadlinePresent, h]

/-- Settles O17: in a timed step each timer is present where it fires. -/
theorem timersFireByElapsedTime : Obligations.TimersFireByElapsedTime := by
  intro s inp htimed
  rw [holdPresent_of_timed htimed, deadlinePresent_of_timed htimed, holdFires_iff, deadlineFires_iff, busy_iff]
  exact ⟨Iff.rfl, Iff.rfl⟩

/-- The environment that presents the timer events the block would generate makes the same step (R168). -/
theorem takeInput_timed (inp : StepInput) (s : State) :
    takeInput { inp with timers := .timed } s =
      takeInput { inp with timers := .untimed (deadlineFires inp.now s) (holdFires inp.now s) } s := rfl

/-- Settles O18: the two events are the ones the block's timers fire, neither of which reads the list of inputs or the
last step's NOW. -/
theorem timedViewIsAnUntimedView : Obligations.TimedViewIsAnUntimedView := by
  rintro s inp rest _ rfl
  have hdeadline : deadlineFires inp.now s =
      (s.busy && decide (s.deadline.toNat ≤ (inp.now.toNat + (2 ^ 64 - s.t0.toNat)) % 2 ^ 64)) := by
    rw [Bool.eq_iff_iff, deadlineFires_iff, Bool.and_eq_true, decide_eq_true_iff]
  have hhold : holdFires inp.now s =
      (decide (s.fsm = .startPulseSent) &&
        decide (s.params.tHoldNs.toNat ≤ (inp.now.toNat + (2 ^ 64 - s.t0.toNat)) % 2 ^ 64)) := by
    rw [Bool.eq_iff_iff, holdFires_iff, Bool.and_eq_true, decide_eq_true_iff, decide_eq_true_iff]
  rw [← hdeadline, ← hhold, step_of_inputs_cons rfl, step_of_inputs_cons rfl]
  exact takeInput_timed inp { s with inputs := rest, now := inp.now }

end Sys2Proof.Proofs
end

section
/-! The pins (R170, R171) and fault entry (R157). -/

namespace Sys2Proof.Proofs

open Sys2Proof.Machine

/-- Settles O16: the pins that follow STATE are the predicates BUSY, DONE and the stream being open. -/
theorem pinsFollowTheState : Obligations.PinsFollowTheState := fun s =>
  ⟨beq_iff_eq, rfl, streamOpen_iff s, busy_iff s, done_iff s, rfl⟩

/-- Settles O53: fault entry is one record update, in which only STATE depends on whether a read ends. -/
theorem faultEntryWritesTheRecord : Obligations.FaultEntryWritesTheRecord := fun _ _ _ _ _ => ⟨rfl, rfl⟩

end Sys2Proof.Proofs
end

section
/-! RESET (R180): it has priority over everything else a step presents. -/

namespace Sys2Proof.Proofs

/-- Settles O56: the reset line of R161's order answers the reset state before any presentation is looked at, and
leaves open only the value of the host read. -/
theorem resetWinsOverEverything : Obligations.ResetWinsOverEverything := by
  intro s inp rest hin hreset
  obtain ⟨_, -, hresetStep, -⟩ := stepProcessesInputsInOrder s inp rest hin
  obtain ⟨v, hstep⟩ := hresetStep hreset
  exact ⟨_, hstep, rfl⟩

end Sys2Proof.Proofs
end
